-- ==== Sys2Proof/Word.lean ====
section
/-! DEFINITION. The word types of the DPN2440: link words, table words, tags and the numbers that
name scenes, gates, slots, lines and footswitches. -/

namespace Sys2Proof

/-- One 32-bit slot word of the Stage Link (1.1). -/
abbrev Word32 := BitVec 32

/-- One 24-bit table word or message payload (R46, R20). -/
abbrev Word24 := BitVec 24

/-- A tag chosen by the rack controller (2.1). -/
abbrev Byte := BitVec 8

/-- A scene number, 0–127; NONE is `none` of `Option SceneNo` (00_scope 5.4). -/
abbrev SceneNo := Fin 128

/-- A gate number, 0–127 (R50). -/
abbrev GateNo := Fin 128

/-- A staging slot, 0–3 (R123). -/
abbrev SlotNo := Fin 4

/-- A delay line, 0–3 (R108). -/
abbrev LineNo := Fin 4

/-- A footswitch, 0–11 (R18). -/
abbrev SwitchNo := Fin 12

/-- A slot of the link frame, 0–7 (1.1). -/
abbrev LinkSlot := Fin 8

end Sys2Proof
end

