-- ==== Sys2Proof/Config.lean ====
section
/-! DEFINITION. What the part fixes: sizes, capacities and default settings, each with the rule
that states it. No value of the manual is left free, so no constant here is opaque. -/

namespace Sys2Proof.Config

/-- Bit clocks of a good interval (R3). -/
def goodClocks : Nat := 256
/-- Good intervals in a row that lock (R4). -/
def lockCount : Nat := 8
/-- Bad intervals in a row that lose the lock (R6). -/
def lossCount : Nat := 2
/-- Frames of a block (00_scope 5.1, R5). -/
def blockFrames : Nat := 16
/-- Words of the command FIFO (R29). -/
def fifoCapacity : Nat := 128
/-- FIFO fill that sets HOLD (R30). -/
def holdSet : Nat := 96
/-- FIFO fill that clears HOLD (R30). -/
def holdClear : Nat := 32
/-- Consecutive IDLE words that time a message out (R26). -/
def assemblyTimeout : Nat := 480
/-- Words of the reply queue (R36). -/
def replyCapacity : Nat := 256
/-- Where 16-bit counters saturate (R41, R92). -/
def counterMax : Nat := 65535
/-- Cost budget of one scene in units (R61). -/
def sceneCost : Nat := 512
/-- Largest positive sample (00_scope 5.2). -/
def sampleMax : Int := 8388607
/-- Most negative sample (00_scope 5.2). -/
def sampleMin : Int := -8388608
/-- A gain or weight of 1.0 (R71, R83, R106). -/
def unity : Nat := 32768
/-- Step of the enable gains and of the mute gain in one frame (R71, R83). -/
def gainStep : Nat := 128
/-- Step of the relock fade-in in one frame (R84). -/
def fadeStep : Nat := 8
/-- Steps of a parameter ramp (R85). -/
def rampSteps : Nat := 8
/-- Samples of a delay line (R108). -/
def lineLength : Nat := 98304
/-- Longest delay time (R108). -/
def timeMax : Nat := 98303
/-- Frames of a tap fade (R110, R121). -/
def tapFade : Nat := 1024
/-- Samples of the modulation memory (R76). -/
def modLength : Nat := 2048
/-- Frames of a click burst (R178). -/
def burstLength : Nat := 480
/-- The tap interval count that stands for more than 144,000 (9.1). -/
def tapCountMax : Nat := 144001
/-- Shortest and longest beat period (9.1). -/
def periodMin : Nat := 12000
def periodMax : Nat := 144000
/-- Entries of the return stack (R162). -/
def stackDepth : Nat := 4
/-- Crossfade length of a switch to NONE without override (R140). -/
def noneFade : Nat := 256
/-- Measured frames without a crossing that mean silence (R196). -/
def silenceFrames : Nat := 4800
/-- Arming level of the tuner (R196). -/
def tunerArm : Int := 8192
/-- Block boundaries between TUNE records (R199). -/
def tunePacing : Nat := 256
/-- The crossfade length a crossfade code stands for, in frames (R47, R140). -/
def fadeLength : Nat → Nat
  | 0 => 0
  | 1 => 64
  | 2 => 128
  | 3 => 256
  | 4 => 512
  | 5 => 1024
  | 6 => 2048
  | _ => 4096

end Sys2Proof.Config
end

