-- ==== Sys2Proof/Syntax.lean ====
section
/-! DEFINITION. The commands: one constructor for each row of spec/opcode_table.json, the table's
steps of the part. A message command carries no operand here: its A0, tag and body lie in the
command FIFO, whose oldest message the executor takes (R32). -/

namespace Sys2Proof

/-- A sync interval as it ends (R3): the bit clocks that fell in it, whether an FSYNC mark ended it
(otherwise the 512-clock limit did), and the words on SDIN in the eight slots. -/
structure SyncInterval where
  clocks : Nat
  mark   : Bool
  words  : Vector Word32 8
  deriving DecidableEq, Repr

/-- The orders R30 and R201 leave open inside one frame: whether the assembler takes the frame's
CONTROL word, and the tuner the frame's sample, at the end of the frame behind the steps that the
queue names there, instead of before them. DESIGN CHOICE, log 9. -/
structure FrameOrder where
  controlLast : Bool
  measureLast : Bool
  deriving DecidableEq, Repr

/-- Which working copy a stage event belongs to (R67). -/
inductive CopyRole where
  | live
  | fading
  deriving DecidableEq, Repr

/-- The steps of the part, in the table's order. -/
inductive Instr where
  | resetnAssert
  | powerOnReset
  | syncIntervalEnd (iv : SyncInterval)
  | lock
  | linkLoss
  | lockedFrame (o : FrameOrder)
  | blockBoundary
  | assemblyTimeout
  | damagedMessage
  | unknownCommand
  | ping
  | status
  | statusZeroCounters
  | meters
  | slotmap
  | slotmapSwitchover
  | restartEngine
  | restartAll
  | load
  | read
  | erase
  | commit
  | gateLimit
  | arm
  | disarm
  | loaderTake
  | preparationComplete
  | switchScene
  | crossfadeStart
  | reversal
  | crossfadeComplete
  | setParam
  | toggleStage
  | store
  | noiseGateHoldEnd (c : CopyRole) (k : Fin 10)
  | noiseGateRampEnd (c : CopyRole) (k : Fin 10)
  | tapFadeEnd (l : LineNo)
  | tailExpiry (l : LineNo)
  | tailCfg
  | footswitchPress (f : SwitchNo)
  | holdEvent (f : SwitchNo)
  | footswitchRelease (f : SwitchNo)
  | pedalCfg
  | switchGate
  | returnPop
  | tempo
  | meter
  | tap
  | click
  | beatBoundary
  | clickBurstEnd
  | cueStart
  | cueListBegin
  | countInStart
  | countInEnd
  | cueEnd
  | vampReload
  | advance
  | skip
  | vamp
  | hold
  | resume
  | stop
  | heldAdvanceCarriedOut
  | heldSkipCarriedOut
  | tunerMode
  | tunerRef
  | tunerSource
  | tunerSilence
  | tunePacingExpiry
  deriving DecidableEq, Repr

end Sys2Proof
end

