-- ==== Sys2Proof/WellFormed.lean ====
section
/-! DEFINITION. Which operands a step of the part can have. -/

namespace Sys2Proof

/-- R3: an interval ends at a mark after 1 to 512 bit clocks, or without one at the 512th. -/
def SyncInterval.wellFormed (iv : SyncInterval) : Bool :=
  1 ≤ iv.clocks && iv.clocks ≤ 512 && (iv.mark || iv.clocks == 512)

/-- Every operand but an interval is bounded by its type. -/
def Instr.wellFormed : Instr → Bool
  | .syncIntervalEnd iv => iv.wellFormed
  | .resetnAssert | .powerOnReset | .lock | .linkLoss | .lockedFrame _ | .blockBoundary
  | .assemblyTimeout | .damagedMessage | .unknownCommand | .ping | .status
  | .statusZeroCounters | .meters | .slotmap | .slotmapSwitchover | .restartEngine
  | .restartAll | .load | .read | .erase | .commit | .gateLimit | .arm | .disarm | .loaderTake
  | .preparationComplete | .switchScene | .crossfadeStart | .reversal | .crossfadeComplete
  | .setParam | .toggleStage | .store | .noiseGateHoldEnd _ _ | .noiseGateRampEnd _ _
  | .tapFadeEnd _ | .tailExpiry _ | .tailCfg | .footswitchPress _ | .holdEvent _
  | .footswitchRelease _ | .pedalCfg | .switchGate | .returnPop | .tempo | .meter | .tap
  | .click | .beatBoundary | .clickBurstEnd | .cueStart | .cueListBegin | .countInStart
  | .countInEnd | .cueEnd | .vampReload | .advance | .skip | .vamp | .hold | .resume | .stop
  | .heldAdvanceCarriedOut | .heldSkipCarriedOut | .tunerMode | .tunerRef | .tunerSource
  | .tunerSilence | .tunePacingExpiry => true

end Sys2Proof
end

