-- ==== Sys2Proof/Decode.lean ====
section
/-! DEFINITION. The table's words. No row of spec/opcode_table.json gives bits ("fields" is empty in
every row), so no word spells a command by the table's bits (log 29). The control words of the link
are decoded in Machine/Operands.lean, where the assembler reads them (R20). -/

namespace Sys2Proof

/-- The command a word of `nbits` bits spells by the table's bits: none, as the table gives none. -/
def decodeTableWord (_nbits _w : Nat) : Option Instr := none

end Sys2Proof
end

