-- ==== Sys2Proof/Machine/State.lean ====
section
/-! DEFINITION. The state of the DPN2440, block by block as 00_scope 2 lists the owners, and the
state right after the power-on reset. Every field is plain data. INVENTORY.md lists each with its
rule and its reset value. -/

namespace Sys2Proof.Machine

/-! ### Stage Link Interface (chapter 1) -/

/-- R4. -/
inductive LockState where
  | unlocked
  | locked
  deriving DecidableEq, Repr

/-- The thirteen roles and their slots; `none` is NONE (1.4). -/
structure SlotMap where
  guitarA    : Option LinkSlot
  guitarB    : Option LinkSlot
  loopReturn : Option LinkSlot
  pedal      : Option LinkSlot
  control    : Option LinkSlot
  fohL       : Option LinkSlot
  fohR       : Option LinkSlot
  ampFeed    : Option LinkSlot
  direct     : Option LinkSlot
  loopSend   : Option LinkSlot
  click      : Option LinkSlot
  status     : Option LinkSlot
  reply      : Option LinkSlot
  deriving DecidableEq, Repr

/-- The power-on slots (R12). -/
def SlotMap.powerOn : SlotMap :=
  { guitarA := some 0, guitarB := some 1, loopReturn := some 2, pedal := some 6, control := some 7
    fohL := some 0, fohR := some 1, ampFeed := some 2, direct := some 3, loopSend := some 4
    click := some 5, status := some 6, reply := some 7 }

/-- What the outbound roles carry in the next frame (R4, R9). -/
structure OutWords where
  fohL     : Int
  fohR     : Int
  ampFeed  : Int
  direct   : Int
  loopSend : Int
  click    : Int
  status   : Word32
  reply    : Word32
  deriving DecidableEq, Repr

/-- R4: zero samples, the all-zero status word and the IDLE reply word. -/
def OutWords.idle : OutWords :=
  { fohL := 0, fohR := 0, ampFeed := 0, direct := 0, loopSend := 0, click := 0
    status := 0, reply := 0 }

/-- The inbound side of an interval that has ended and is to be delivered as a frame: how many
slots were received in full, and the slot words (R6). -/
structure Received where
  full  : Nat
  words : Vector Word32 8
  deriving DecidableEq, Repr

structure Sli where
  lock       : LockState
  good       : Nat
  bad        : Nat
  /-- LOCKED has been entered since power-on: the cause of the LINK report (R8). -/
  everLocked : Bool
  counter    : BitVec 32
  map        : SlotMap
  waiting    : Option SlotMap
  /-- The SLOTMAP ACK has been driven in full: the switch-over is due (R14). -/
  ackSent    : Bool
  /-- The interval in progress began at the 512-clock limit, not at a mark (R3). -/
  markless   : Bool
  received   : Option Received
  /-- The last word delivered to PMN; `none` is the word with every footswitch released and no
  expression reading (R6, R10). -/
  lastPedal  : Option Word32
  outbound   : OutWords
  /-- The bits last driven in each slot of SDOUT, the first on the wire first: all 32, fewer in a slot
  that the interval cut short, none in a slot left undriven (R3, R6, R11). -/
  sdout      : Vector (List Bool) 8
  /-- RESETN is held low (R16). -/
  resetHeld  : Bool
  deriving DecidableEq, Repr

/-! ### Control Channel (chapter 2) -/

/-- The result codes of R40. -/
inductive Code where
  | ok | accepted | badCommand | badLength | range | notPresent | limit | level | inUse | busy
  | stackFull | stackEmpty | cost | invalid | overrun | fragment | timeout | superseded
  | invalidated | already | skipped
  deriving DecidableEq, Repr

/-- The kinds of reply record (1.5-5). -/
inductive RecordKind where
  | ack | data | link | fault | switch | gate | cue | pedal | tempo | arm | tune
  deriving DecidableEq, Repr

/-- A reply record (R36). `ends` marks the ACK of an accepted SLOTMAP (R14). -/
structure Record where
  kind : RecordKind
  tag  : Byte
  code : Code
  body : List Word24
  ends : Bool
  deriving DecidableEq, Repr

/-- The record the serializer has started: its words not yet driven in full, next first (R37). -/
structure Flight where
  words : List Word32
  ends  : Bool
  deriving DecidableEq, Repr

/-- A message: the fields of its HEAD, the payloads held, and the damaged mark (2.1, R29). -/
structure Message where
  len     : Nat
  code    : Nat
  tag     : Byte
  a0      : Nat
  body    : List Word24
  damaged : Bool
  deriving DecidableEq, Repr

/-- The assembler's fields (2.1). -/
structure Assembler where
  assembling : Bool
  len        : Nat
  code       : Nat
  tag        : Byte
  a0         : Nat
  bodies     : Nat
  timeout    : Nat
  damaged    : Bool
  headless   : Bool
  deriving DecidableEq, Repr

/-- The six channel counters (R41). -/
structure Counters where
  executed       : Nat
  fragments      : Nat
  timeouts       : Nat
  wordsDropped   : Nat
  recordsDropped : Nat
  tuneDropped    : Nat
  deriving DecidableEq, Repr

def Counters.zero : Counters :=
  { executed := 0, fragments := 0, timeouts := 0, wordsDropped := 0, recordsDropped := 0
    tuneDropped := 0 }

structure Cch where
  asm      : Assembler
  /-- The complete messages of the command FIFO, oldest first (R29). -/
  fifo     : List Message
  /-- The words of the open message that are in the FIFO; `none` when there are none. -/
  tail     : Option Message
  hold     : Bool
  class1   : List Record
  class2   : List Record
  class3   : List Record
  class4   : List Record
  flight   : Option Flight
  dropped  : Bool
  counters : Counters
  /-- The model's own: reports raised by the action in progress, not yet queued (R34). -/
  outbox   : List Record
  deriving DecidableEq, Repr

/-! ### Table Memory (chapter 3) -/

/-- Table words by address: strictly rising addresses, no blank word listed (Machine/TableMem.lean). -/
abbrev Mem := List (Nat × Word24)

structure Tbm where
  mem        : Mem
  validScene : Vector Bool 128
  validShape : Vector Bool 16
  validIr    : Vector Bool 8
  gateLimit  : Nat
  deriving DecidableEq, Repr

/-! ### Scene records, prepared images and working copies (R47, R67, R123) -/

/-- The stage kinds of R48. -/
inductive StageKind where
  | gate | eq | drive | amp | cab | mod | delay | loop | volume
  deriving DecidableEq, Repr

/-- A stage of a scene record: kind, enabled flag, parameter words (R47). -/
structure StageRecord where
  kind    : StageKind
  enabled : Bool
  params  : List Word24
  deriving DecidableEq, Repr

structure SceneRecord where
  inputSelect : Word24
  fadeCode    : Word24
  level       : Word24
  stages      : List StageRecord
  deriving DecidableEq, Repr

/-- A prepared image: the record and the first taps words of the referenced IR (R128). -/
structure Image where
  record : SceneRecord
  taps   : List Word24
  deriving DecidableEq, Repr

/-- A change of a running value in progress (R85): a ramp from `from` to `target` of which `k` steps
are done, or a value to be taken at a boundary. -/
inductive Change where
  | ramp (start target : Int) (k : Nat)
  | boundary (value : Int)
  deriving DecidableEq, Repr

/-- One parameter of a working copy (R67). `fresh`: the change was made after the last frame
processed, so the boundary that follows that frame does not count (R85). -/
structure Param where
  set    : Word24
  run    : Int
  change : Option Change
  fresh  : Bool
  deriving DecidableEq, Repr

/-- R73. -/
inductive GateState where
  | opened | hold | attack | release | closed
  deriving DecidableEq, Repr

/-- The state of a noise gate. `start`, `len` and `k` are the ramp of ATTACK and RELEASE: the gain
when it began, its length in blocks and the frames of it done (R73). -/
structure NoiseGate where
  st    : GateState
  gain  : Int
  hold  : Nat
  peak  : Int
  start : Int
  len   : Nat
  k     : Nat
  deriving DecidableEq, Repr

/-- The history of a biquad (R102). -/
structure Biquad where
  x1 : Int
  x2 : Int
  y1 : Int
  y2 : Int
  deriving DecidableEq, Repr

/-- Stage state by kind (R69). Sample histories are newest first; a sample beyond the list is 0. -/
inductive StageState where
  | gate (g : NoiseGate)
  | eq (b : Biquad)
  | drive
  | amp (pre : Biquad) (env : Int) (t1 t2 t3 : Biquad)
  | cab (hist : List Int)
  | mod (mem : List Int) (pos : Nat)
  | delay
  | loop
  | volume
  deriving DecidableEq, Repr

structure Stage where
  kind    : StageKind
  params  : List Param
  enabled : Bool
  gain    : Nat
  st      : StageState
  clips   : Nat
  deriving DecidableEq, Repr

structure Copy where
  inputSelect : Word24
  fadeCode    : Word24
  level       : Word24
  stages      : List Stage
  taps        : List Word24
  edited      : Bool
  deriving DecidableEq, Repr

structure Sce where
  live     : Option Copy
  fading   : Option Copy
  mute     : Nat
  /-- The relock fade-in gain F of the next frame processed (R84). -/
  fade     : Nat
  peakL    : Nat
  peakR    : Nat
  mixClips : Nat
  clip     : Bool
  deriving DecidableEq, Repr

/-! ### Staging Unit (chapter 7) -/

/-- R123. -/
inductive SlotState where
  | empty | queued | preparing | ready | live | fading
  deriving DecidableEq, Repr

/-- What put the slot in QUEUED (R123, R131). -/
inductive Origin where
  | command | request | lookAhead
  deriving DecidableEq, Repr

structure StgSlot where
  state     : SlotState
  scene     : Option SceneNo
  pinned    : Bool
  cuePin    : Bool
  demanded  : Bool
  remaining : Nat
  origin    : Origin
  tag       : Byte
  image     : Option Image
  /-- The slot entered QUEUED after the last frame processed (R127). -/
  fresh     : Bool
  deriving DecidableEq, Repr

/-- A slot that holds nothing (R123). Its origin and tag, which no rule reads, are the ARM command and 0
(log 22). -/
def StgSlot.vacant : StgSlot :=
  { state := .empty, scene := none, pinned := false, cuePin := false, demanded := false
    remaining := 0, origin := .command, tag := 0, image := none, fresh := false }

/-- `loaderWaits`: a DISARM has aborted the preparation in progress, and the loader takes its next slot at a
later block boundary (R132). -/
structure Stg where
  slots       : Vector StgSlot 4
  armQueue    : List SlotNo
  readyOrder  : List SlotNo
  loaderWaits : Bool
  deriving DecidableEq, Repr

/-! ### Switch Unit (chapters 7 and 8) -/

inductive Source where
  | foot | cue | controller
  deriving DecidableEq, Repr

inductive Quantize where
  | none | beat | bar
  deriving DecidableEq, Repr

/-- A switch request (R133). -/
structure Request where
  target   : Option SceneNo
  source   : Source
  quantize : Quantize
  override : Option (Fin 8)
  gate     : Option GateNo
  owner    : Option SwitchNo
  tag      : Byte
  deriving DecidableEq, Repr

/-- The pending switch (R136). `fresh`: made after the last frame processed (R139), or latched after it
behind the block boundary that follows it (R172). -/
structure Pending where
  req    : Request
  passed : Bool
  fresh  : Bool
  deriving DecidableEq, Repr

/-- The crossfade record (7.5). `reversed`: the served request was a reversal (R143). -/
structure Crossfade where
  length        : Nat
  elapsed       : Nat
  served        : Request
  reversed      : Bool
  reversal      : Option Request
  reversalFresh : Bool
  deriving DecidableEq, Repr

inductive Reason where
  | momentary | tuner
  deriving DecidableEq, Repr

/-- An entry of the return stack (R162). -/
structure StackEntry where
  saved  : Option SceneNo
  reason : Reason
  owner  : Option SwitchNo
  deriving DecidableEq, Repr

structure Swu where
  pending   : Option Pending
  crossfade : Option Crossfade
  /-- Bottom first (R162). -/
  stack     : List StackEntry
  deriving DecidableEq, Repr

/-! ### Delay Line Unit (chapter 6) -/

inductive LineState where
  | free | live | tail
  deriving DecidableEq, Repr

/-- A line context with its memory (R108). The fill is the length of `mem`, the samples written
since the line was last emptied, newest first. -/
structure Line where
  state    : LineState
  owner1   : Option SceneNo
  owner2   : Option SceneNo
  current  : Nat
  target   : Nat
  held     : Option Nat
  position : Nat
  feedback : Nat
  wet      : Nat
  pan      : Nat
  tail     : Bool
  quiet    : Nat
  age      : Nat
  peak     : Nat
  mem      : List Int
  /-- The judgement of R117 has found the tail expired; the line has not yet entered FREE. -/
  expiry   : Bool
  deriving DecidableEq, Repr

/-- The FREE values of R108, with fill 0. -/
def Line.free : Line :=
  { state := .free, owner1 := none, owner2 := none, current := 0, target := 0, held := none
    position := 0, feedback := 0, wet := 0, pan := 0, tail := false, quiet := 0, age := 0
    peak := 0, mem := [], expiry := false }

structure Dlu where
  lines     : Vector Line 4
  threshold : Nat
  quietTime : Nat
  limit     : Nat
  deriving DecidableEq, Repr

/-- R118. -/
def Dlu.default : Dlu :=
  { lines := Vector.replicate 4 Line.free, threshold := 64, quietTime := 375, limit := 30 }

/-! ### Pedal Monitor (chapter 8) -/

inductive SwitchState where
  | released | pressed | held
  deriving DecidableEq, Repr

structure Footswitch where
  /-- The reference: `true` is pressed. -/
  reference : Bool
  debounce  : Nat
  state     : SwitchState
  deferred  : Bool
  hold      : Nat
  /-- The press was taken after the last frame processed (R152). -/
  fresh     : Bool
  deriving DecidableEq, Repr

/-- An event confirmed by the pedal word and not yet taken (R148). -/
inductive PedalEvent where
  | press (f : SwitchNo)
  | release (f : SwitchNo)
  | expression (second : Bool) (value : Nat)
  deriving DecidableEq, Repr

structure Pmn where
  switches  : Vector Footswitch 12
  last1     : Nat
  last2     : Nat
  debounce  : Nat
  reporting : Bool
  /-- The model's own: events of the frame in the order of R148. -/
  events    : List PedalEvent
  deriving DecidableEq, Repr

/-! ### Tempo Clock (9.1) -/

inductive ClickMode where
  | off | on | countInOnly
  deriving DecidableEq, Repr

inductive BurstKind where
  | accent | normal
  deriving DecidableEq, Repr

structure Tck where
  period      : Nat
  phase       : Nat
  beat        : Nat
  meter       : Nat
  tapOpen     : Bool
  tapCount    : Nat
  tapHistory  : List Nat
  clickMode   : ClickMode
  accentLevel : Nat
  normalLevel : Nat
  burstPos    : Nat
  /-- The kind of the burst in progress; `none` when there is no burst (R178). -/
  burst       : Option BurstKind
  deriving DecidableEq, Repr

/-! ### Cue Sequencer (9.2) -/

inductive CueState where
  | idle | countIn | running | vamping | held
  deriving DecidableEq, Repr

inductive CueOp where
  | advance | skip | vamp | hold | resume | stop
  deriving DecidableEq, Repr

inductive HeldOp where
  | advance | skip
  deriving DecidableEq, Repr

/-- A CUE_START not yet begun (R184). `fresh`: accepted after the last frame processed (R185). -/
structure WaitingStart where
  list    : Fin 16
  start   : Nat
  countIn : Nat
  fresh   : Bool
  deriving DecidableEq, Repr

/-- The cue event a beat boundary has called for and that is taken next (R185, R188, R190). -/
inductive CueDue where
  | countInStart | countInEnd | cueEnd | vampReload | heldAdvance | heldSkip
  deriving DecidableEq, Repr

structure Csq where
  state     : CueState
  waiting   : Option WaitingStart
  list      : Fin 16
  tag       : Byte
  current   : Option Nat
  lookAhead : Option Nat
  remaining : Nat
  barsLeft  : Nat
  heldOp    : Option HeldOp
  /-- The model's own: see `CueDue`. -/
  due       : Option CueDue
  deriving DecidableEq, Repr

/-! ### Tuner (chapter 10) -/

inductive TunerMode where
  | off | background
  deriving DecidableEq, Repr

inductive TunerSetting where
  | a | b | follow
  deriving DecidableEq, Repr

/-- A PITCH reading (R198). -/
structure Pitch where
  note  : Nat
  cents : Int
  freq  : Nat
  deriving DecidableEq, Repr

structure Tun where
  mode      : TunerMode
  reference : Nat
  source    : TunerSetting
  index     : Nat
  previous  : Option Int
  armed     : Bool
  lastCross : Option Int
  periods   : List Int
  /-- `none` is NO_PITCH. -/
  reading   : Option Pitch
  pacing    : Nat
  /-- Measured frames since the later of the last crossing, the last silence and the window
  restart (R196). -/
  silence   : Nat
  /-- The model's own: the pacing count has reached 256 at this boundary (R199). -/
  pacingDue : Bool
  deriving DecidableEq, Repr

/-! ### The end of a frame (the model's own) -/

/-- Where the machine stands after a locked frame has been processed and before the next interval
ends (log 2). -/
structure FrameEnd where
  /-- A frame has been processed and not yet closed. -/
  isOpen      : Bool
  /-- The executor has taken a message in this frame (R32). -/
  taken       : Bool
  /-- A block boundary follows this frame and has not been taken (R5). -/
  blockDue    : Bool
  /-- The block boundary that follows this frame has been taken. -/
  atBlock     : Bool
  /-- The start test of R139 has been taken at this boundary and has failed. -/
  tested      : Bool
  /-- The phase has stood at P − 1 in this frame: its rise is still to come (R171, R181). -/
  riseDue     : Bool
  /-- The CONTROL word kept for the end of the frame (log 9). -/
  lateControl : Option Word32
  /-- The GUITAR_A and GUITAR_B samples kept for a measurement at the end of the frame (log 9). -/
  lateSamples : Option (Int × Int)
  deriving DecidableEq, Repr

def FrameEnd.closed : FrameEnd :=
  { isOpen := false, taken := false, blockDue := false, atBlock := false, tested := false
    riseDue := false, lateControl := none, lateSamples := none }

/-! ### The machine -/

structure State where
  sli     : Sli
  cch     : Cch
  tbm     : Tbm
  stg     : Stg
  swu     : Swu
  sce     : Sce
  dlu     : Dlu
  pmn     : Pmn
  tck     : Tck
  csq     : Csq
  tun     : Tun
  frame   : FrameEnd
  pending : List Instr
  deriving DecidableEq, Repr

/-- The chip has no fault: nothing in the manual stops it, so no step can end in one (INVENTORY,
Faults). The type has no constructor. Safe. -/
inductive Fault where
  deriving DecidableEq, Repr

/-- Why a step is not run. -/
inductive Refusal where
  /-- The command has no meaning yet; raised only by an arm of `exec` that has none. Safe: the
  machine stops. No arm raises it now. -/
  | notModelled (mnemonic : String)
  deriving DecidableEq, Repr

/-! ### Reset values -/

def Sli.reset : Sli :=
  { lock := .unlocked, good := 0, bad := 0, everLocked := false, counter := 0
    map := SlotMap.powerOn, waiting := none, ackSent := false, markless := false
    received := none, lastPedal := none, outbound := OutWords.idle
    sdout := Vector.replicate 8 [], resetHeld := false }

def Assembler.idle : Assembler :=
  { assembling := false, len := 0, code := 0, tag := 0, a0 := 0, bodies := 0, timeout := 0
    damaged := false, headless := false }

def Cch.reset : Cch :=
  { asm := Assembler.idle, fifo := [], tail := none, hold := false, class1 := [], class2 := []
    class3 := [], class4 := [], flight := none, dropped := false, counters := Counters.zero
    outbox := [] }

/-- R66. -/
def Tbm.blank : Tbm :=
  { mem := [], validScene := Vector.replicate 128 false, validShape := Vector.replicate 16 false
    validIr := Vector.replicate 8 false, gateLimit := 0 }

/-- R147. -/
def Stg.reset : Stg :=
  { slots := Vector.replicate 4 StgSlot.vacant, armQueue := [], readyOrder := [], loaderWaits := false }

/-- R147, R170. -/
def Swu.reset : Swu := { pending := none, crossfade := none, stack := [] }

/-- R93. -/
def Sce.reset : Sce :=
  { live := none, fading := none, mute := 32768, fade := 0, peakL := 0, peakR := 0
    mixClips := 0, clip := false }

/-- R156. -/
def Footswitch.rest : Footswitch :=
  { reference := false, debounce := 0, state := .released, deferred := false, hold := 0
    fresh := false }

def Pmn.reset : Pmn :=
  { switches := Vector.replicate 12 Footswitch.rest, last1 := 0, last2 := 0, debounce := 15
    reporting := false, events := [] }

/-- R182. -/
def Tck.reset : Tck :=
  { period := 24000, phase := 0, beat := 1, meter := 4, tapOpen := false, tapCount := 0
    tapHistory := [], clickMode := .off, accentLevel := 32768, normalLevel := 16384
    burstPos := 480, burst := none }

/-- R193. -/
def Csq.reset : Csq :=
  { state := .idle, waiting := none, list := 0, tag := 0, current := none, lookAhead := none
    remaining := 0, barsLeft := 0, heldOp := none, due := none }

/-- R202. -/
def Tun.reset : Tun :=
  { mode := .off, reference := 440, source := .follow, index := 0, previous := none
    armed := false, lastCross := none, periods := [], reading := none, pacing := 0
    silence := 0, pacingDue := false }

/-- The machine right after the power-on reset (R16 and the reset table of each chapter). -/
def State.reset : State :=
  { sli := Sli.reset, cch := Cch.reset, tbm := Tbm.blank, stg := Stg.reset, swu := Swu.reset
    sce := Sce.reset, dlu := Dlu.default, pmn := Pmn.reset, tck := Tck.reset, csq := Csq.reset
    tun := Tun.reset, frame := FrameEnd.closed, pending := [] }

end Sys2Proof.Machine
end

