-- ==== Sys2Proof/Machine/Ops.lean ====
section
/-! DEFINITION. Named operations over the state that every block uses: update of one block, update
of one element of a bank, counters that saturate, and exact arithmetic with the rounding and
clamping of R1. -/

namespace Sys2Proof.Machine

/-! ### Banks -/

/-- One element of a bank replaced. -/
def upd {α : Type} {n : Nat} (v : Vector α n) (i : Fin n) (x : α) : Vector α n := v.set i x

/-- A bank with `f` applied to every element. -/
def vmap {α β : Type} {n : Nat} (f : α → β) (v : Vector α n) : Vector β n :=
  ⟨⟨v.toList.map f⟩, by simp⟩

/-- Whether any element of a bank satisfies `p`. -/
def vany {α : Type} {n : Nat} (p : α → Bool) (v : Vector α n) : Bool := v.toList.any p

/-- The four staging slots, and the four delay lines, in number order. -/
def four : List (Fin 4) := [0, 1, 2, 3]

/-- The twelve footswitches in number order. -/
def twelve : List (Fin 12) := [0, 1, 2, 3, 4, 5, 6, 7, 8, 9, 10, 11]

/-- `f` taken for each of `xs` in turn. -/
def forEach {α : Type} (xs : List α) (f : α → State → State) (s : State) : State :=
  xs.foldl (fun s x => f x s) s

/-! ### Update of one block -/

def State.mapSli (f : Sli → Sli) (s : State) : State := { s with sli := f s.sli }
def State.mapCch (f : Cch → Cch) (s : State) : State := { s with cch := f s.cch }
def State.mapTbm (f : Tbm → Tbm) (s : State) : State := { s with tbm := f s.tbm }
def State.mapStg (f : Stg → Stg) (s : State) : State := { s with stg := f s.stg }
def State.mapSwu (f : Swu → Swu) (s : State) : State := { s with swu := f s.swu }
def State.mapSce (f : Sce → Sce) (s : State) : State := { s with sce := f s.sce }
def State.mapDlu (f : Dlu → Dlu) (s : State) : State := { s with dlu := f s.dlu }
def State.mapPmn (f : Pmn → Pmn) (s : State) : State := { s with pmn := f s.pmn }
def State.mapTck (f : Tck → Tck) (s : State) : State := { s with tck := f s.tck }
def State.mapCsq (f : Csq → Csq) (s : State) : State := { s with csq := f s.csq }
def State.mapTun (f : Tun → Tun) (s : State) : State := { s with tun := f s.tun }
def State.mapFrame (f : FrameEnd → FrameEnd) (s : State) : State := { s with frame := f s.frame }

/-- A staging slot replaced. -/
def State.setSlot (i : SlotNo) (f : StgSlot → StgSlot) (s : State) : State :=
  s.mapStg fun g => { g with slots := upd g.slots i (f (g.slots.get i)) }

/-- A delay line replaced. -/
def State.setLine (l : LineNo) (f : Line → Line) (s : State) : State :=
  s.mapDlu fun d => { d with lines := upd d.lines l (f (d.lines.get l)) }

/-- A footswitch replaced. -/
def State.setSwitch (i : SwitchNo) (f : Footswitch → Footswitch) (s : State) : State :=
  s.mapPmn fun p => { p with switches := upd p.switches i (f (p.switches.get i)) }

/-! ### Counters and arithmetic (R1, R41, R94) -/

/-- A 16-bit counter raised by `n`, saturating at 65,535 (R1, R41, R92). -/
def satAdd (c n : Nat) : Nat := min Config.counterMax (c + n)

/-- Rounded (R1): half the divisor is added and the floor taken. `Int` division by a positive
divisor takes the floor. -/
def rounded (a d : Int) : Int := (2 * a + d) / (2 * d)

/-- Clamped (R1): the nearest end of the range. -/
def clampTo (lo hi x : Int) : Int := max lo (min x hi)

/-- Clamped to the sample range. -/
def clampSample (x : Int) : Int := clampTo Config.sampleMin Config.sampleMax x

/-- 1 if the clamp to the sample range changes the value: one clip (R94). -/
def clipOf (x : Int) : Nat := if clampSample x = x then 0 else 1

/-- A value times a weight or level scaled by 32,768, rounded. -/
def share (x : Int) (g : Int) : Int := rounded (x * g) 32768

/-- The crossfade mix of R106. -/
def crossMix (a b w : Int) : Int := (a * w + b * (32768 - w) + 16384) / 32768

/-- A gain moved by one step toward its target (R71, R83). -/
def moveGain (g : Nat) (up : Bool) : Nat :=
  if up then min Config.unity (g + Config.gainStep) else g - Config.gainStep

/-! ### Fields of words -/

/-- Bits `hi` down to `lo` of a word as a number. -/
def bits {n : Nat} (hi lo : Nat) (w : BitVec n) : Nat := (w.toNat >>> lo) % 2 ^ (hi + 1 - lo)

/-- One bit of a word. -/
def bit {n : Nat} (i : Nat) (w : BitVec n) : Bool := w.getLsbD i

/-- A scene field: 0–127 is a scene, anything else NONE (00_scope 5.4). -/
def sceneOf (n : Nat) : Option SceneNo := if h : n < 128 then some ⟨n, h⟩ else none

/-- NONE is written as 255 wherever a field holds it (00_scope 5.4). -/
def byteOf {n : Nat} : Option (Fin n) → Nat
  | some i => i.val
  | none => 255

/-- A number as a payload. -/
def payload (n : Nat) : Word24 := BitVec.ofNat 24 n

end Sys2Proof.Machine
end

