-- ==== Sys2Proof/Machine/Operands.lean ====
section
/-! DEFINITION. The layouts of 1.5: samples in slots, the pedal word, control words, reply words and
the SLOTMAP body, and the numbers of codes and kinds. -/

namespace Sys2Proof.Machine

/-! ### Samples (R17) -/

/-- The sample of an inbound audio word: bits 31–8, two's complement. -/
def sampleOfWord (w : Word32) : Int := (w.extractLsb' 8 24).toInt

/-- An outbound audio word: the sample in bits 31–8, bits 7–0 driven 0. -/
def wordOfSample (x : Int) : Word32 := BitVec.ofInt 24 x ++ (0 : BitVec 8)

/-! ### Pedal word (R18) -/

/-- Footswitch `f` is pressed: bit 31 is footswitch 0, bit 20 footswitch 11. `none` is the word
with every footswitch released and no reading (R10). -/
def pedalDown (w : Option Word32) (f : SwitchNo) : Bool :=
  match w with
  | some w => bit (31 - f.val) w
  | none => false

/-- The readings of pedals 1 and 2, if the word carries them. -/
def pedalReading (w : Option Word32) : Option (Nat × Nat) :=
  w.map fun w => (bits 19 10 w, bits 9 0 w)

/-! ### Control word (R20) -/

/-- A control word by its type. -/
inductive ControlWord where
  | idle
  | head (len code : Nat) (tag : Byte) (a0 : Nat)
  | body (seq : Nat) (data : Word24)
  | abort
  deriving DecidableEq, Repr

def controlWord (w : Word32) : ControlWord :=
  match bits 31 30 w with
  | 0 => .idle
  | 1 => .head (bits 29 24 w) (bits 23 16 w) (w.extractLsb' 8 8) (bits 7 0 w)
  | 2 => .body (bits 29 24 w) (w.extractLsb' 0 24)
  | _ => .abort

/-! ### Reply words (R21, R40) -/

/-- The value of a result code (R40). -/
def Code.value : Code → Nat
  | .ok => 0 | .accepted => 1 | .badCommand => 2 | .badLength => 3 | .range => 4
  | .notPresent => 5 | .limit => 6 | .level => 7 | .inUse => 8 | .busy => 9 | .stackFull => 10
  | .stackEmpty => 11 | .cost => 12 | .invalid => 13 | .overrun => 14 | .fragment => 15
  | .timeout => 16 | .superseded => 17 | .invalidated => 18 | .already => 19 | .skipped => 20

/-- The number of a record kind (1.5-5). -/
def RecordKind.value : RecordKind → Nat
  | .ack => 0 | .data => 1 | .link => 2 | .fault => 3 | .switch => 4 | .gate => 5 | .cue => 6
  | .pedal => 7 | .tempo => 8 | .arm => 9 | .tune => 10

/-- The class of a kind, 1 to 4 (1.5-5, R36). -/
def RecordKind.cls : RecordKind → Nat
  | .link | .fault => 1
  | .ack | .data => 2
  | .switch | .gate | .cue | .pedal | .tempo | .arm => 3
  | .tune => 4

/-- The RHEAD of a record (R21). -/
def Record.rhead (r : Record) : Word32 :=
  BitVec.ofNat 32 (1 <<< 30 + (r.kind.cls - 1) <<< 28 + r.kind.value <<< 24
    + r.body.length <<< 18 + r.tag.toNat <<< 10 + r.code.value <<< 2)

/-- The RBODY with sequence number `seq` (R21). -/
def rbody (seq : Nat) (data : Word24) : Word32 :=
  BitVec.ofNat 32 (2 <<< 30 + seq <<< 24 + data.toNat)

/-- RBODY words numbered on from `seq`. -/
def rbodies : Nat → List Word24 → List Word32
  | _, [] => []
  | seq, d :: ds => rbody seq d :: rbodies (seq + 1) ds

/-- The words of a record as they leave, RHEAD first (R36, R37). -/
def Record.words (r : Record) : List Word32 := r.rhead :: rbodies 0 r.body

/-! ### SLOTMAP body (R22, R13) -/

/-- A role field: a slot 0–7, or 255 for NONE. -/
def roleOf (n : Nat) : Option LinkSlot := if h : n < 8 then some ⟨n, h⟩ else none

/-- Check 2 of R13 for one field. -/
def roleInRange (n : Nat) : Bool := n < 8 || n == 255

/-- The thirteen role fields of the five BODY payloads, in layout order, unused fields left out. -/
def slotMapFields (w1 w2 w3 w4 w5 : Word24) : List Nat :=
  [bits 23 16 w1, bits 15 8 w1, bits 7 0 w1, bits 23 16 w2, bits 15 8 w2,
   bits 23 16 w3, bits 15 8 w3, bits 7 0 w3, bits 23 16 w4, bits 15 8 w4, bits 7 0 w4,
   bits 23 16 w5, bits 15 8 w5]

/-- The map that five BODY payloads describe (R22). -/
def slotMapOf (w1 w2 w3 w4 w5 : Word24) : SlotMap :=
  { guitarA := roleOf (bits 23 16 w1), guitarB := roleOf (bits 15 8 w1)
    loopReturn := roleOf (bits 7 0 w1), pedal := roleOf (bits 23 16 w2)
    control := roleOf (bits 15 8 w2), fohL := roleOf (bits 23 16 w3)
    fohR := roleOf (bits 15 8 w3), ampFeed := roleOf (bits 7 0 w3)
    direct := roleOf (bits 23 16 w4), loopSend := roleOf (bits 15 8 w4)
    click := roleOf (bits 7 0 w4), status := roleOf (bits 23 16 w5)
    reply := roleOf (bits 15 8 w5) }

/-- The slots held by the inbound roles. -/
def SlotMap.inbound (m : SlotMap) : List (Option LinkSlot) :=
  [m.guitarA, m.guitarB, m.loopReturn, m.pedal, m.control]

/-- The slots held by the outbound roles. -/
def SlotMap.outboundSlots (m : SlotMap) : List (Option LinkSlot) :=
  [m.fohL, m.fohR, m.ampFeed, m.direct, m.loopSend, m.click, m.status, m.reply]

/-- No slot held twice; NONE is exempt (R13 check 4). -/
def noSlotTwice : List (Option LinkSlot) → Bool
  | [] => true
  | none :: rs => noSlotTwice rs
  | some k :: rs => !rs.contains (some k) && noSlotTwice rs

/-! ### Argument B and other small fields -/

/-- The quantize code of a message or gate record: 0 NONE, 1 BEAT, 2 BAR (R50, R134). -/
def quantizeOf : Nat → Quantize
  | 1 => .beat
  | 2 => .bar
  | _ => .none

/-- The source number of reports (R144, R159, R177). -/
def Source.value : Source → Nat
  | .foot => 1 | .cue => 2 | .controller => 3

/-- The level of a source (R157). -/
def Source.level : Source → Nat
  | .foot => 1 | .cue => 2 | .controller => 3

/-- The cue operation a number names (R50, R189). -/
def cueOpOf : Nat → Option CueOp
  | 0 => some .advance | 1 => some .skip | 2 => some .vamp | 3 => some .hold
  | 4 => some .resume | 5 => some .stop | _ => none

end Sys2Proof.Machine
end

