-- ==== Sys2Proof/Machine/Reply.lean ====
section
/-! DEFINITION. The reply queue and its serializer (2.4), and the reports as the blocks raise them.
A block's action collects its reports in the outbox; `deliver` queues them in order when the action
is done, behind the command's reply (R34). -/

namespace Sys2Proof.Machine

/-- The length of a record in words (R36). -/
def Record.length (r : Record) : Nat := 1 + r.body.length

def recordsLength (rs : List Record) : Nat := (rs.map Record.length).sum

/-- The words the reply queue holds, those of the started record included (R36). -/
def Cch.replyWords (c : Cch) : Nat :=
  (match c.flight with | some f => f.words.length | none => 0)
    + recordsLength c.class1 + recordsLength c.class2 + recordsLength c.class3
    + recordsLength c.class4

/-- R33. -/
def Cch.room (c : Cch) : Nat := Config.replyCapacity - c.replyWords

/-- R38: a class 1 or class 3 record dropped whole. -/
def Cch.dropRecord (c : Cch) : Cch :=
  { c with dropped := true
           counters := { c.counters with recordsDropped := satAdd c.counters.recordsDropped 1 } }

/-- A record queued in the class of its kind (R36), by the drop rule of its class (R38, R39). -/
def Cch.enqueue (r : Record) (c : Cch) : Cch :=
  match r.kind.cls with
  | 1 => if c.room < r.length then c.dropRecord else { c with class1 := c.class1 ++ [r] }
  | 2 => { c with class2 := c.class2 ++ [r] }
  | 3 => if c.room < r.length then c.dropRecord else { c with class3 := c.class3 ++ [r] }
  | _ =>
    if !c.class4.isEmpty || r.length ≤ c.room then { c with class4 := [r] }
    else { c with
      counters := { c.counters with tuneDropped := satAdd c.counters.tuneDropped 1 } }

/-- A report raised by the action in progress. -/
def State.raise (kind : RecordKind) (tag : Byte) (code : Code) (body : List Word24)
    (s : State) : State :=
  s.mapCch fun c =>
    { c with outbox := c.outbox ++ [{ kind := kind, tag := tag, code := code, body := body
                                      ends := false }] }

/-- The reports of the action that is done are queued, in the order in which they were raised. -/
def State.deliver (s : State) : State :=
  s.mapCch fun c => c.outbox.foldl (fun c r => c.enqueue r) { c with outbox := [] }

/-- The reply queue emptied, the record in flight with it (R44, R45). -/
def Cch.emptyReplies (c : Cch) : Cch :=
  { c with class1 := [], class2 := [], class3 := [], class4 := [], flight := none, outbox := [] }

/-- The record `r` started: it leaves its class, and all its words are still to be sent (R37). -/
def Record.start (r : Record) : Option Flight := some { words := r.words, ends := r.ends }

/-- Step 2 of R37: the oldest record of the lowest-numbered class that is not empty is started. -/
def Cch.startRecord (c : Cch) : Cch :=
  match c.class1, c.class2, c.class3, c.class4 with
  | r :: rs, _, _, _ => { c with class1 := rs, flight := r.start }
  | [], r :: rs, _, _ => { c with class2 := rs, flight := r.start }
  | [], [], r :: rs, _ => { c with class3 := rs, flight := r.start }
  | [], [], [], r :: rs => { c with class4 := rs, flight := r.start }
  | [], [], [], [] => c

/-- The word to be driven next: the next word of the started record, or IDLE (R37). -/
def Cch.nextWord (c : Cch) : Word32 :=
  match c.flight with
  | some f => f.words.headD 0
  | none => 0

/-- The serializer's choice at the end of a frame (R37). -/
def Cch.serialize (c : Cch) : Cch := if c.flight.isSome then c else c.startRecord

/-- A word of the started record has been driven in full and leaves the queue (R36). -/
def Cch.wordSent (c : Cch) : Cch :=
  match c.flight with
  | some f =>
    match f.words with
    | _ :: w :: ws => { c with flight := some { f with words := w :: ws } }
    | _ => { c with flight := none }
  | none => c

/-- The word about to be driven is the whole ACK of an accepted SLOTMAP (R14). -/
def Cch.sendsSlotmapAck (c : Cch) : Bool :=
  match c.flight with
  | some f => f.ends && f.words.length == 1
  | none => false

/-- The LINK report of a lock (R8). -/
def linkReport (relock : Bool) : Record :=
  { kind := .link, tag := 0, code := .ok
    body := [payload (if relock then 1 <<< 16 else 0)], ends := false }

end Sys2Proof.Machine
end

