-- ==== Sys2Proof/Machine/Assembler.lean ====
section
/-! DEFINITION. The assembler and the command FIFO (2.1, 2.2). -/

namespace Sys2Proof.Machine

/-- The words of a message that are in the FIFO: its HEAD and the payloads written (R29). -/
def Message.words (m : Message) : Nat := 1 + m.body.length

/-- The fill of the command FIFO (R29). -/
def Cch.fill (c : Cch) : Nat :=
  (c.fifo.map Message.words).sum + (match c.tail with | some m => m.words | none => 0)

/-- HOLD after a change of the fill (R30). -/
def Cch.followFill (c : Cch) : Cch :=
  { c with hold := if Config.holdSet ≤ c.fill then true
                   else if c.fill ≤ Config.holdClear then false else c.hold }

/-- R31: a control word dropped or not written. -/
def Cch.dropWord (c : Cch) : Cch :=
  { c with counters := { c.counters with wordsDropped := satAdd c.counters.wordsDropped 1 } }

/-- The trigger field of a FAULT report (R28). -/
inductive Trigger where
  | bodySequence | headInside | bodyOutside | timeoutOverrun
  deriving DecidableEq, Repr

def Trigger.value : Trigger → Nat
  | .bodySequence => 0 | .headInside => 1 | .bodyOutside => 2 | .timeoutOverrun => 3

/-- The FAULT report of R28. -/
def faultReport (tag : Byte) (code : Code) (command bodies seq : Nat) (t : Trigger) : Record :=
  { kind := .fault, tag := tag, code := code
    body := [payload (command <<< 16 + bodies <<< 10 + seq <<< 4 + t.value <<< 2)], ends := false }

/-- A FAULT about the open message. -/
def Cch.faultOpen (code : Code) (seq : Nat) (t : Trigger) (c : Cch) : Cch :=
  c.enqueue (faultReport c.asm.tag code c.asm.code c.asm.bodies seq t)

/-- The fragments counter counts the cause whether or not the report finds room (R28, R41). -/
def Cch.countFragment (c : Cch) : Cch :=
  { c with counters := { c.counters with fragments := satAdd c.counters.fragments 1 } }

/-- The open message removed from the FIFO tail; the assembler returns to IDLE (R25–R27, R29). -/
def Cch.discardOpen (c : Cch) : Cch :=
  Cch.followFill { c with tail := none, asm := { c.asm with assembling := false } }

/-- The open message is complete (R24, R31): it joins the complete messages with its damaged mark,
or, headless, is reported with OVERRUN. -/
def Cch.completeOpen (c : Cch) : Cch :=
  let c := { c with asm := { c.asm with assembling := false } }
  if c.asm.headless then c.faultOpen .overrun 0 .timeoutOverrun
  else
    match c.tail with
    | some m => { c with tail := none, fifo := c.fifo ++ [{ m with damaged := c.asm.damaged }] }
    | none => c

/-- A HEAD taken with no message open (R23, R31). -/
def Cch.takeHead (len code : Nat) (tag : Byte) (a0 : Nat) (c : Cch) : Cch :=
  let full := Config.fifoCapacity ≤ c.fill
  let c := { c with asm := { assembling := len != 0, len := len, code := code, tag := tag, a0 := a0
                             bodies := 0, timeout := 0, damaged := false, headless := full } }
  let c :=
    if full then c.dropWord
    else Cch.followFill { c with tail := some { len := len, code := code, tag := tag, a0 := a0
                                                body := [], damaged := false } }
  if len = 0 then c.completeOpen else c

/-- The payload of an accepted BODY written, or dropped by R31. -/
def Cch.writeBody (data : Word24) (c : Cch) : Cch :=
  if c.asm.headless || c.asm.damaged then c.dropWord
  else if Config.fifoCapacity ≤ c.fill then
    { c.dropWord with asm := { c.asm with damaged := true } }
  else
    match c.tail with
    | some m => Cch.followFill { c with tail := some { m with body := m.body ++ [data] } }
    | none => c

/-- A BODY in ASSEMBLING (R24, R25). -/
def Cch.takeBody (seq : Nat) (data : Word24) (c : Cch) : Cch :=
  if seq = c.asm.bodies then
    let c := c.writeBody data
    let c := { c with asm := { c.asm with bodies := c.asm.bodies + 1, timeout := 0 } }
    if c.asm.bodies = c.asm.len then c.completeOpen else c
  else (c.countFragment.faultOpen .fragment seq .bodySequence).discardOpen

/-- One CONTROL word as one arrival (R23–R27). -/
def Cch.arrival (w : ControlWord) (c : Cch) : Cch :=
  if c.asm.assembling then
    match w with
    | .idle => { c with asm := { c.asm with timeout := c.asm.timeout + 1 } }
    | .head len code tag a0 =>
      ((c.countFragment.faultOpen .fragment 0 .headInside).discardOpen).takeHead len code tag a0
    | .body seq data => c.takeBody seq data
    | .abort => c.discardOpen
  else
    match w with
    | .idle => c
    | .head len code tag a0 => c.takeHead len code tag a0
    | .body seq _ => c.countFragment.enqueue (faultReport 0 .fragment 0 0 seq .bodyOutside)
    | .abort => c

/-- R26: the timeout count has reached 480 in ASSEMBLING. -/
def Cch.timedOut (c : Cch) : Bool :=
  c.asm.assembling && Config.assemblyTimeout ≤ c.asm.timeout

/-- The message timed out: discarded, counted and reported (R26, R28). -/
def Cch.timeOut (c : Cch) : Cch :=
  Cch.discardOpen
    (Cch.faultOpen .timeout 0 .timeoutOverrun
      { c with counters := { c.counters with timeouts := satAdd c.counters.timeouts 1 } })

/-- The channel's part of a link loss (R45). -/
def Cch.linkLoss (c : Cch) : Cch :=
  { c.emptyReplies with
    asm := { c.asm with assembling := false }, fifo := [], tail := none, hold := false }

end Sys2Proof.Machine
end

