-- ==== Sys2Proof/Machine/Arith.lean ====
section
/-! DEFINITION. The five pieces of arithmetic of chapter 5: shaper, level step, biquad, cabinet FIR
(the crossfade mix is `crossMix`). Each answers its result with the clips it counts (R94). -/

namespace Sys2Proof.Machine

/-- A result together with the clips counted on the way to it. -/
structure Clipped (α : Type) where
  val   : α
  clips : Nat

/-- A named clamp of R94. -/
def clampClip (x : Int) : Clipped Int := ⟨clampSample x, clipOf x⟩

/-- The level step (R100). -/
def levelStep (y L : Int) : Clipped Int := clampClip (share y L)

/-- Steps 3 to 5 of the shaper (R97, R98) on `v` before its clamp, over the points `T`. -/
def shapeLookup (T : Nat → Int) (v : Int) : Clipped Int :=
  let c := clampClip v
  let u := c.val + 8388608
  let seg := (u / 32768).toNat
  let f := u % 32768
  ⟨T seg + rounded ((T (seg + 1) - T seg) * f) 32768, c.clips⟩

/-- Steps 1 to 5 of the shaper with sag offset `o` (R96–R98). -/
def shaper (T : Nat → Int) (G o x : Int) : Clipped Int := shapeLookup T (rounded (x * G) 256 - o)

/-- The sag offset from the envelope of the previous frame (R97). -/
def sagOffset (e S : Int) : Int := share e S

/-- Step 6: the envelope after a shaper output `y` (R99). -/
def envelope (ka kr e y : Int) : Int :=
  let a := min 8388607 (y.natAbs : Int)
  e + share (a - e) (if e < a then ka else kr)

/-- The coefficients of a biquad in Q2.22 (R102). -/
structure Coeffs where
  b0 : Int
  b1 : Int
  b2 : Int
  a1 : Int
  a2 : Int

/-- One frame of a biquad (R102). -/
def biquad (k : Coeffs) (h : Biquad) (x : Int) : Clipped Int × Biquad :=
  let acc := k.b0 * x + k.b1 * h.x1 + k.b2 * h.x2 - k.a1 * h.y1 - k.a2 * h.y2
  let y := clampClip (rounded acc 4194304)
  (y, { x1 := x, x2 := h.x1, y1 := y.val, y2 := h.y1 })

/-- The history of zeros (R69). -/
def Biquad.zero : Biquad := { x1 := 0, x2 := 0, y1 := 0, y2 := 0 }

/-- The sum of taps times samples, `x` first and then the history, newest first (R104). -/
def firSum : List Word24 → List Int → Int
  | h :: hs, x :: xs => h.toInt * x + firSum hs xs
  | _, _ => 0

/-- Steps 1 to 3 of the cabinet FIR (R104). -/
def fir (taps : List Word24) (hist : List Int) (x : Int) : Clipped Int :=
  clampClip (rounded (firSum taps (x :: hist)) 8388608)

end Sys2Proof.Machine
end

