-- ==== Sys2Proof/Machine/TableMem.lean ====
section
/-! DEFINITION. Table Memory as an addressed store of 24-bit words in canonical form, its entries,
and the records read from them (3.1–3.6). -/

namespace Sys2Proof.Machine

/-! ### Kinds and addresses (R46) -/

inductive TableKind where
  | scene | shape | ir | gate | footmap | expmap | cue | cuedir | slotView | lineView | stackView
  deriving DecidableEq, Repr

/-- The kind a kind code names (R46). -/
def kindOf : Nat → Option TableKind
  | 0 => some .scene | 1 => some .shape | 2 => some .ir | 3 => some .gate | 4 => some .footmap
  | 5 => some .expmap | 6 => some .cue | 7 => some .cuedir | 8 => some .slotView
  | 9 => some .lineView | 10 => some .stackView | _ => none

/-- Whether the kind is a READ-only view (R56). -/
def TableKind.isView : TableKind → Bool
  | .slotView | .lineView | .stackView => true
  | .scene | .shape | .ir | .gate | .footmap | .expmap | .cue | .cuedir => false

def TableKind.entries : TableKind → Nat
  | .scene => 128 | .shape => 16 | .ir => 8 | .gate => 128 | .footmap => 12 | .expmap => 4
  | .cue => 1024 | .cuedir => 16 | .slotView => 4 | .lineView => 4 | .stackView => 1

def TableKind.words : TableKind → Nat
  | .scene => 274 | .shape => 513 | .ir => 1024 | .gate => 3 | .footmap => 2 | .expmap => 3
  | .cue => 3 | .cuedir => 1 | .slotView => 1 | .lineView => 12 | .stackView => 5

/-- Where the entries of a kind begin in the model's address space: the kinds of R46 one after the
other. Views have no words of their own. -/
def TableKind.base : TableKind → Nat
  | .scene => 0
  | .shape => 35072
  | .ir => 43280
  | .gate => 51472
  | .footmap => 51856
  | .expmap => 51880
  | .cue => 51892
  | .cuedir => 54964
  | .slotView | .lineView | .stackView => 54980

/-- The address of word `off` of entry `idx`. -/
def entryAddr (k : TableKind) (idx off : Nat) : Nat := k.base + idx * k.words + off

/-- What an unlisted address reads as: the blank value of its kind (R46, R50–R53). Bits that no blank
value gives (gate numbers and start index of absent fields, unlisted bits) are 0 (log 36). -/
def blankWord (a : Nat) : Word24 :=
  if a < 51472 then 0
  else if a < 51856 then
    match (a - 51472) % 3 with
    | 0 => payload (1 <<< 12)
    | 1 => payload (255 <<< 16)
    | _ => 0
  else if a < 51880 then (if (a - 51856) % 2 = 1 then payload 1 else 0)
  else if a < 51892 then (if (a - 51880) % 3 = 0 then payload (1 <<< 16 + 1 <<< 8) else 0)
  else if a < 54964 then (if (a - 51892) % 3 = 0 then payload (255 <<< 16) else 0)
  else 0

/-! ### The store -/

/-- The word at an address. -/
def Mem.read : Mem → Nat → Word24
  | [], a => blankWord a
  | (k, v) :: m, a => if k = a then v else Mem.read m a

/-- One word written, in canonical form: writing the blank value removes the entry. -/
def Mem.write : Mem → Nat → Word24 → Mem
  | [], a, v => if v = blankWord a then [] else [(a, v)]
  | (k, w) :: m, a, v =>
    if a < k then (if v = blankWord a then (k, w) :: m else (a, v) :: (k, w) :: m)
    else if a = k then (if v = blankWord a then m else (a, v) :: m)
    else (k, w) :: Mem.write m a v

/-- Every address of the store lies at or above `lo`, addresses rise strictly, and no word listed
is what an unlisted address reads as. -/
def Mem.wfFrom : Nat → Mem → Bool
  | _, [] => true
  | lo, (k, v) :: m => lo ≤ k && v != blankWord k && Mem.wfFrom (k + 1) m

/-- The canonical form. -/
def Mem.wf (m : Mem) : Bool := Mem.wfFrom 0 m

/-- Words written one after the other from an address. -/
def Mem.writeAll : Mem → Nat → List Word24 → Mem
  | m, _, [] => m
  | m, a, v :: vs => Mem.writeAll (m.write a v) (a + 1) vs

/-- `n` words read from an address. -/
def Mem.readAll (m : Mem) (a : Nat) : Nat → List Word24
  | 0 => []
  | n + 1 => m.read a :: Mem.readAll m (a + 1) n

/-- Word `off` of an entry. -/
def Tbm.word (t : Tbm) (k : TableKind) (idx off : Nat) : Word24 := t.mem.read (entryAddr k idx off)

/-- Words written into an entry. -/
def Tbm.writeEntry (t : Tbm) (k : TableKind) (idx off : Nat) (ws : List Word24) : Tbm :=
  { t with mem := t.mem.writeAll (entryAddr k idx off) ws }

/-! ### VALID flags (R46) -/

def Tbm.sceneValid (t : Tbm) (n : SceneNo) : Bool := t.validScene.get n

/-- The VALID flag of a SCENE, SHAPE or IR entry; other kinds and entries carry none. -/
def Tbm.valid (t : Tbm) (k : TableKind) (idx : Nat) : Bool :=
  match k with
  | .scene => if h : idx < 128 then t.validScene.get ⟨idx, h⟩ else false
  | .shape => if h : idx < 16 then t.validShape.get ⟨idx, h⟩ else false
  | .ir => if h : idx < 8 then t.validIr.get ⟨idx, h⟩ else false
  | .gate | .footmap | .expmap | .cue | .cuedir | .slotView | .lineView | .stackView => false

/-- A VALID flag set or cleared. -/
def Tbm.setValid (t : Tbm) (k : TableKind) (idx : Nat) (v : Bool) : Tbm :=
  match k with
  | .scene => if h : idx < 128 then { t with validScene := upd t.validScene ⟨idx, h⟩ v } else t
  | .shape => if h : idx < 16 then { t with validShape := upd t.validShape ⟨idx, h⟩ v } else t
  | .ir => if h : idx < 8 then { t with validIr := upd t.validIr ⟨idx, h⟩ v } else t
  | .gate | .footmap | .expmap | .cue | .cuedir | .slotView | .lineView | .stackView => t

/-! ### Scene records (R47–R49) -/

/-- The stage kind a code names (R48). -/
def stageKindOf : Nat → Option StageKind
  | 1 => some .gate | 2 => some .eq | 3 => some .drive | 4 => some .amp | 5 => some .cab
  | 6 => some .mod | 7 => some .delay | 8 => some .loop | 9 => some .volume | _ => none

/-- The code of a stage kind (R48). -/
def StageKind.code : StageKind → Nat
  | .gate => 1 | .eq => 2 | .drive => 3 | .amp => 4 | .cab => 5 | .mod => 6 | .delay => 7
  | .loop => 8 | .volume => 9

/-- The parameter words of a stage kind (R48). -/
def StageKind.count : StageKind → Nat
  | .gate => 5 | .eq => 5 | .drive => 3 | .amp => 26 | .cab => 3 | .mod => 5 | .delay => 10
  | .loop => 3 | .volume => 1

/-- A table reference clamped to its range (R49). -/
def clampRef (hi : Nat) (w : Word24) : Nat := min hi w.toNat

/-- The SHAPE entry a stage references, if its kind references one (R49). -/
def shapeRef (k : StageKind) (params : List Word24) : Option Nat :=
  match k with
  | .drive => some (clampRef 15 (params.getD 0 0))
  | .amp => some (clampRef 15 (params.getD 5 0))
  | .gate | .eq | .cab | .mod | .delay | .loop | .volume => none

/-- The IR entry a stage references, if it is a CAB stage (R49). -/
def irRef (k : StageKind) (params : List Word24) : Option Nat :=
  match k with
  | .cab => some (clampRef 7 (params.getD 0 0))
  | .gate | .eq | .drive | .amp | .mod | .delay | .loop | .volume => none

/-- The delay line a stage references, if it is a DELAY stage (R49). -/
def lineRef (k : StageKind) (params : List Word24) : Option Nat :=
  match k with
  | .delay => some (clampRef 3 (params.getD 0 0))
  | .gate | .eq | .drive | .amp | .cab | .mod | .loop | .volume => none

/-- The cost of a stage in units (R48). -/
def StageRecord.cost (r : StageRecord) : Nat :=
  match r.kind with
  | .gate => 8 | .eq => 10 | .drive => 20 | .amp => 60 | .cab => (r.params.getD 1 0).toNat / 4
  | .mod => 24 | .delay => 6 | .loop => 4 | .volume => 2

/-- The stages of a record from word `pos` on, `n` of them, or none if the structure breaks check 3
of R61: a kind code not 1–9, a parameter count that is not the kind's, or a last parameter word
beyond word 273. -/
def parseStages (word : Nat → Word24) : Nat → Nat → Option (List StageRecord)
  | _, 0 => some []
  | pos, n + 1 =>
    let h := word pos
    match stageKindOf (bits 23 16 h) with
    | none => none
    | some k =>
      if bits 7 0 h ≠ k.count ∨ 273 < pos + k.count then none
      else
        match parseStages word (pos + 1 + k.count) n with
        | none => none
        | some rest =>
          some ({ kind := k, enabled := bit 8 h
                  params := (List.range k.count).map fun i => word (pos + 1 + i) } :: rest)

/-- The scene record of an entry, if its header and stages have the structure of R47. -/
def parseScene (word : Nat → Word24) : Option SceneRecord :=
  if (word 1).toNat < 1 ∨ 10 < (word 1).toNat then none
  else
    (parseStages word 4 (word 1).toNat).map fun stages =>
      { inputSelect := word 0, fadeCode := word 2, level := word 3, stages := stages }

/-- The record without stages that stands for an entry with no record (log 21). -/
def SceneRecord.empty : SceneRecord :=
  { inputSelect := 0, fadeCode := 0, level := 0, stages := [] }

/-- The record of a SCENE entry. A VALID entry always has one (R61, R90). -/
def Tbm.sceneRecord (t : Tbm) (n : Nat) : SceneRecord :=
  (parseScene (t.word .scene n)).getD SceneRecord.empty

/-- The SHAPE entries a record references (R49). -/
def SceneRecord.shapes (r : SceneRecord) : List Nat :=
  r.stages.filterMap fun st => shapeRef st.kind st.params

/-- The IR entries a record references (R49). -/
def SceneRecord.irs (r : SceneRecord) : List Nat :=
  r.stages.filterMap fun st => irRef st.kind st.params

/-- The taps word of the record's CAB stage, if it has one. -/
def SceneRecord.taps (r : SceneRecord) : Option Nat :=
  (r.stages.find? fun st => st.kind == .cab).map fun st => (st.params.getD 1 0).toNat

/-- Whether a record references entry `idx` of a SHAPE or IR kind. -/
def SceneRecord.references (r : SceneRecord) (k : TableKind) (idx : Nat) : Bool :=
  match k with
  | .shape => r.shapes.contains idx
  | .ir => r.irs.contains idx
  | .scene | .gate | .footmap | .expmap | .cue | .cuedir | .slotView | .lineView
  | .stackView => false

/-- A stage header word as STORE writes it (R47, R90). The bits that R47 ignores are 0 (log 38). -/
def StageRecord.header (r : StageRecord) : Word24 :=
  payload (r.kind.code <<< 16 + (if r.enabled then 1 <<< 8 else 0) + r.kind.count)

/-- The words of a record, in entry order (R47). -/
def SceneRecord.words (r : SceneRecord) : List Word24 :=
  [r.inputSelect, payload r.stages.length, r.fadeCode, r.level]
    ++ r.stages.flatMap fun st => st.header :: st.params

/-! ### Gates, footswitch map, expression maps, cues (R50–R55, R57) -/

inductive GateKind where
  | scene | momentary | pop | tuner | toggleStage | cueStart | cueOp | tap
  deriving DecidableEq, Repr

def gateKindOf : Nat → GateKind
  | 0 => .scene | 1 => .momentary | 2 => .pop | 3 => .tuner | 4 => .toggleStage
  | 5 => .cueStart | 6 => .cueOp | _ => .tap

inductive GateCondition where
  | always | cueRunning | cueIdle | tunerEngaged | stackEmpty | stackNonempty
  deriving DecidableEq, Repr

def gateConditionOf : Nat → GateCondition
  | 0 => .always | 1 => .cueRunning | 2 => .cueIdle | 3 => .tunerEngaged | 4 => .stackEmpty
  | _ => .stackNonempty

/-- A gate record (R50). -/
structure Gate where
  present   : Bool
  kind      : GateKind
  level     : Nat
  quantize  : Quantize
  condition : GateCondition
  argA      : Nat
  argB      : Nat
  elseGate  : Option GateNo
  deriving DecidableEq, Repr

/-- A gate reference field with its present bit (R57). -/
def gateRef (present : Bool) (n : Nat) : Option GateNo := if present then sceneOf n else none

def Tbm.gate (t : Tbm) (g : GateNo) : Gate :=
  let w0 := t.word .gate g 0
  let w1 := t.word .gate g 1
  let w2 := t.word .gate g 2
  { present := bit 23 w0, kind := gateKindOf (bits 18 16 w0), level := bits 13 12 w0
    quantize := quantizeOf (bits 9 8 w0), condition := gateConditionOf (bits 2 0 w0)
    argA := bits 23 16 w1, argB := bits 15 8 w1, elseGate := gateRef (bit 23 w2) (bits 6 0 w2) }

def Tbm.pressGate (t : Tbm) (f : SwitchNo) : Option GateNo :=
  gateRef (bit 23 (t.word .footmap f 0)) (bits 22 16 (t.word .footmap f 0))

def Tbm.releaseGate (t : Tbm) (f : SwitchNo) : Option GateNo :=
  gateRef (bit 15 (t.word .footmap f 0)) (bits 14 8 (t.word .footmap f 0))

def Tbm.holdGate (t : Tbm) (f : SwitchNo) : Option GateNo :=
  gateRef (bit 7 (t.word .footmap f 0)) (bits 6 0 (t.word .footmap f 0))

/-- The hold code of a FOOTMAP entry (R51). -/
def Tbm.holdCode (t : Tbm) (f : SwitchNo) : Nat := bits 5 0 (t.word .footmap f 1)

/-- An expression map (R52). -/
structure ExpMap where
  enabled : Bool
  pedal   : Nat
  stage   : Nat
  param   : Nat
  min     : Int
  max     : Int
  deriving DecidableEq, Repr

def Tbm.expMap (t : Tbm) (i : Nat) : ExpMap :=
  let w := t.word .expmap i 0
  { enabled := bit 23 w, pedal := bits 17 16 w, stage := bits 11 8 w, param := bits 4 0 w
    min := (t.word .expmap i 1).toInt, max := (t.word .expmap i 2).toInt }

/-- A cue record (R53). -/
structure Cue where
  scene    : Option SceneNo
  cont     : Bool
  quant    : Bool
  residue  : Bool
  length   : Nat
  tempo    : Nat
  deriving DecidableEq, Repr

def Tbm.cue (t : Tbm) (i : Nat) : Cue :=
  let w0 := t.word .cue i 0
  { scene := sceneOf (bits 23 16 w0), cont := bit 0 w0, quant := bit 1 w0, residue := bit 2 w0
    length := bits 23 12 (t.word .cue i 1), tempo := bits 15 0 (t.word .cue i 2) }

/-- The residue field of a cue record written, and nothing else (R54). -/
def Tbm.writeResidue (t : Tbm) (i n : Nat) : Tbm :=
  t.writeEntry .cue i 1 [payload (bits 23 12 (t.word .cue i 1) <<< 12 + n)]

/-- The start index of a cue list, if its directory entry is present (R55). -/
def Tbm.cueStart (t : Tbm) (l : Fin 16) : Option Nat :=
  let w := t.word .cuedir l 0
  if bit 23 w then some (bits 9 0 w) else none

/-! ### Ranges of loaded words (R50–R53, check 5 of R58) -/

/-- Argument A and B fit the gate kind (R50). -/
def gateArgsFit (kind : GateKind) (a b : Nat) : Bool :=
  match kind with
  | .scene | .momentary => a < 128 || a == 255
  | .toggleStage => 1 ≤ a && a ≤ 10
  | .cueStart => a ≤ 15 && b ≤ 4
  | .cueOp => a ≤ 5
  | .pop | .tuner | .tap => true

/-- The quantize of a gate fits its kind: SCENE and MOMENTARY gates read it, any other stores it as loaded
(R50, R161, log 39). -/
def gateQuantizeFits (kind : GateKind) (q : Nat) : Bool :=
  match kind with
  | .scene | .momentary => q ≤ 2
  | .pop | .tuner | .toggleStage | .cueStart | .cueOp | .tap => true

/-- An entry as it would stand breaks no range of R50 to R53. A field that the kind of a GATE entry does not
read is not checked (R50). -/
def entryInRange (k : TableKind) (word : Nat → Word24) : Bool :=
  match k with
  | .gate =>
    let kind := gateKindOf (bits 18 16 (word 0))
    1 ≤ bits 13 12 (word 0) && gateQuantizeFits kind (bits 9 8 (word 0)) && bits 2 0 (word 0) ≤ 5
      && gateArgsFit kind (bits 23 16 (word 1)) (bits 15 8 (word 1))
  | .footmap => 1 ≤ bits 5 0 (word 1) && bits 5 0 (word 1) ≤ 40
  | .expmap =>
    (bits 17 16 (word 0) == 1 || bits 17 16 (word 0) == 2) && 1 ≤ bits 11 8 (word 0)
      && bits 11 8 (word 0) ≤ 10 && bits 4 0 (word 0) ≤ 25
  | .cue =>
    (bits 23 16 (word 0) < 128 || bits 23 16 (word 0) == 255)
      && bits 11 0 (word 1) ≤ bits 23 12 (word 1)
      && (bits 15 0 (word 2) == 0 || (2000 ≤ bits 15 0 (word 2) && bits 15 0 (word 2) ≤ 24000))
  | .scene | .shape | .ir | .cuedir | .slotView | .lineView | .stackView => true

/-! ### COMMIT of a scene (R61) -/

/-- No element occurs twice. -/
def allDistinct : List Nat → Bool
  | [] => true
  | x :: xs => !xs.contains x && allDistinct xs

/-- The checks of R61 on a SCENE entry that is not VALID, in their order: the code of the first
failure, or OK. -/
def validateScene (word : Nat → Word24) : Code :=
  if 2 < (word 0).toNat ∨ 7 < (word 2).toNat then .invalid
  else
    match parseScene word with
    | none => .invalid
    | some r =>
      if Config.sceneCost < (r.stages.map StageRecord.cost).sum then .cost
      else if 1 < (r.stages.filter fun st => st.kind == .cab).length
          ∨ 1 < (r.stages.filter fun st => st.kind == .loop).length then .invalid
      else if !allDistinct (r.stages.filterMap fun st => lineRef st.kind st.params) then .invalid
      else
        match r.taps with
        | none => .ok
        | some n => if n % 128 = 0 ∧ 128 ≤ n ∧ n ≤ 1024 then .ok else .invalid

end Sys2Proof.Machine
end

