-- ==== Sys2Proof/Machine/Stages.lean ====
section
/-! DEFINITION. Working copies, parameters and the stage kinds (4.1, 4.2, 4.4-1). -/

namespace Sys2Proof.Machine

/-! ### Parameters (R72, R85) -/

inductive ParamClass where
  | structural | ramp | boundary
  deriving DecidableEq, Repr

/-- How a parameter takes effect (R72). -/
def paramClass (k : StageKind) (i : Nat) : ParamClass :=
  match k with
  | .gate | .eq => .boundary
  | .drive => if i = 0 then .structural else .ramp
  | .amp => if i = 5 then .structural else if i = 6 ∨ i = 7 ∨ i = 25 then .ramp else .boundary
  | .cab => if i = 2 then .ramp else .structural
  | .mod => if i = 3 ∨ i = 4 then .ramp else .boundary
  | .delay =>
    if i = 0 then .structural else if i = 1 ∨ i = 6 ∨ i = 7 then .ramp else .boundary
  | .loop | .volume => .ramp

/-- Whether a parameter is read as a two's-complement number: the Q2.22 coefficients (R72 *2). -/
def paramSigned (k : StageKind) (i : Nat) : Bool :=
  match k with
  | .eq => true
  | .amp => i < 5 || (10 ≤ i && i < 25)
  | .gate | .drive | .cab | .mod | .delay | .loop | .volume => false

/-- The range of a parameter (R72). -/
def paramRange (k : StageKind) (i : Nat) : Int × Int :=
  match k with
  | .gate => if i < 2 then (0, 8388607) else if i = 2 then (0, 255) else (0, 3000)
  | .eq => (-8388608, 8388607)
  | .drive => if i = 0 then (0, 15) else (0, 65535)
  | .amp =>
    if i = 5 then (0, 15)
    else if i = 6 ∨ i = 25 then (0, 65535)
    else if i = 7 ∨ i = 8 ∨ i = 9 then (0, 32767)
    else (-8388608, 8388607)
  | .cab => if i = 0 then (0, 7) else if i = 1 then (0, 16777215) else (0, 65535)
  | .mod =>
    match i with
    | 0 => (1, 2000) | 1 => (0, 1024) | 2 => (16, 2047) | 3 => (0, 32768) | _ => (0, 32767)
  | .delay =>
    match i with
    | 0 => (0, 3) | 1 => (0, 65535) | 2 => (0, 1) | 3 => (1, 98303) | 4 => (1, 8) | 5 => (1, 16)
    | 6 => (0, 32767) | 7 => (0, 32767) | 8 => (0, 32768) | _ => (0, 1)
  | .loop => if i = 2 then (0, 32768) else (0, 65535)
  | .volume => (0, 65535)

/-- A value clamped to a parameter's range (R72). -/
def paramClamp (k : StageKind) (i : Nat) (v : Int) : Int :=
  clampTo (paramRange k i).1 (paramRange k i).2 v

/-- The value of a parameter word by its format (R49, R86). -/
def paramValue (k : StageKind) (i : Nat) (w : Word24) : Int :=
  if paramSigned k i then w.toInt else w.toNat

/-- The running value of a parameter of a stage, clamped at use (R67, R72). -/
def Stage.val (st : Stage) (i : Nat) : Int :=
  paramClamp st.kind i ((st.params[i]?).elim 0 Param.run)

/-- A running value used as an unsigned count or level. -/
def Stage.nat (st : Stage) (i : Nat) : Nat := (st.val i).toNat

/-- A change toward `v` started (R85). It replaces one that still waits, also right before the boundary that would
have taken that one (log 44). -/
def Param.startChange (k : StageKind) (i : Nat) (v : Int) (p : Param) : Param :=
  { p with
    change := some (if paramClass k i = .ramp then .ramp p.run v 0 else .boundary v)
    fresh := true }

/-- One block boundary of a change (R85). -/
def Param.step (p : Param) : Param :=
  if p.fresh then p
  else
    match p.change with
    | none => p
    | some (.boundary v) => { p with run := v, change := none }
    | some (.ramp a t k) =>
      { p with
        run := a + rounded ((t - a) * (k + 1 : Nat)) 8
        change := if k + 1 < Config.rampSteps then some (.ramp a t (k + 1)) else none }

/-- A change ended at its target (R84.2). -/
def Param.settle (p : Param) : Param :=
  match p.change with
  | none => { p with fresh := false }
  | some (.boundary v) => { p with run := v, change := none, fresh := false }
  | some (.ramp _ t _) => { p with run := t, change := none, fresh := false }

/-! ### Stage states (R69) -/

/-- The start value of a noise gate (R69). -/
def NoiseGate.initial : NoiseGate :=
  { st := .opened, gain := 32768, hold := 0, peak := 0, start := 0, len := 0, k := 0 }

/-- The start value of a stage state (R69). -/
def StageState.initial : StageKind → StageState
  | .gate => .gate NoiseGate.initial
  | .eq => .eq Biquad.zero
  | .drive => .drive
  | .amp => .amp Biquad.zero 0 Biquad.zero Biquad.zero Biquad.zero
  | .cab => .cab []
  | .mod => .mod [] 0
  | .delay => .delay
  | .loop => .loop
  | .volume => .volume

/-! ### Working copies (R67, R68) -/

/-- The parameters of a new copy: set and running values equal the image words (R68). -/
def newParams (k : StageKind) : Nat → List Word24 → List Param
  | _, [] => []
  | i, w :: ws =>
    { set := w, run := paramValue k i w, change := none, fresh := false } :: newParams k (i + 1) ws

/-- The enable gain a flag asks for (R68, R84). -/
def enableTarget (enabled : Bool) : Nat := if enabled then Config.unity else 0

def Stage.ofRecord (r : StageRecord) : Stage :=
  { kind := r.kind, params := newParams r.kind 0 r.params, enabled := r.enabled
    gain := enableTarget r.enabled, st := StageState.initial r.kind, clips := 0 }

/-- A new working copy made from a prepared image (R68). -/
def Copy.ofImage (im : Image) : Copy :=
  { inputSelect := im.record.inputSelect, fadeCode := im.record.fadeCode
    level := im.record.level, stages := im.record.stages.map Stage.ofRecord, taps := im.taps
    edited := false }

/-- The record a STORE writes: the header, the present enabled flags and the set values (R90). -/
def Copy.record (c : Copy) : SceneRecord :=
  { inputSelect := c.inputSelect, fadeCode := c.fadeCode, level := c.level
    stages := c.stages.map fun st =>
      { kind := st.kind, enabled := st.enabled, params := st.params.map Param.set } }

/-- The stage of a copy with a stage index 1–10 replaced (R86, R87). -/
def Copy.mapStage (idx : Nat) (f : Stage → Stage) (c : Copy) : Copy :=
  { c with stages := c.stages.modify (idx - 1) f }

/-- R84 items 1 to 3 for one stage. -/
def Stage.relock (st : Stage) : Stage :=
  { st with st := StageState.initial st.kind, params := st.params.map Param.settle
            gain := enableTarget st.enabled }

def Copy.relock (c : Copy) : Copy := { c with stages := c.stages.map Stage.relock }

/-- A frame has been processed: the changes made before it count the boundaries from here (R85). -/
def Copy.age (c : Copy) : Copy :=
  { c with stages := c.stages.map fun st =>
      { st with params := st.params.map fun p => { p with fresh := false } } }

/-! ### Block boundary of a stage (R74, R76, R85) -/

/-- The close level (R74). -/
def closeLevel (st : Stage) : Int := max 0 (st.val 0 - st.val 1)

/-- A ramp begun from the present gain (R73). -/
def NoiseGate.startRamp (g : NoiseGate) (dest : GateState) (start : Int) (len : Nat) : NoiseGate :=
  { g with st := dest, start := start, len := len, k := 0 }

/-- The decision of a noise gate at a block boundary (R74), by the levels and the hold of `st`. A ramp
begins at the first frame after the boundary (R73), so its length is the running value of `stepped`,
the stage behind the parameter step of the boundary (R85). At the end of HOLD the count stands at 0 and
RELEASE is taken by `Stage.holdEnd`. The peak is then reset. -/
def Stage.decideGate (st stepped : Stage) (g : NoiseGate) : NoiseGate :=
  let threshold := st.val 0
  let close := closeLevel st
  let attack := g.startRamp .attack g.gain (stepped.nat 2)
  let next : NoiseGate :=
    match g.st with
    | .closed => if threshold ≤ g.peak then attack else g
    | .attack => if g.peak < close then g.startRamp .release g.gain (stepped.nat 4) else g
    | .opened =>
      if g.peak < close then
        if 0 < st.nat 3 then { g with st := .hold, hold := st.nat 3 }
        else g.startRamp .release 32768 (stepped.nat 4)
      else g
    | .hold => if close ≤ g.peak then { g with st := .opened } else { g with hold := g.hold - 1 }
    | .release => if threshold ≤ g.peak then attack else g
  { next with peak := 0 }

/-- The LFO period of a MOD stage in frames (R76). -/
def lfoPeriod (st : Stage) : Nat := 4800000 / st.nat 0

/-- The LFO position after the rate may have changed (R76). -/
def refitLfo (old new : Stage) : StageState :=
  match new.st with
  | .mod mem pos =>
    .mod mem (if lfoPeriod old = lfoPeriod new then pos else pos % lfoPeriod new)
  | .gate g => .gate g | .eq b => .eq b | .drive => .drive | .amp p e a b c => .amp p e a b c
  | .cab h => .cab h | .delay => .delay | .loop => .loop | .volume => .volume

/-- One stage at a block boundary: one step of every change (R85), and the decision of a noise gate, by
the levels as they stand before that step (log 15). -/
def Stage.boundary (st : Stage) : Stage :=
  let stepped := { st with params := st.params.map Param.step }
  match st.st with
  | .gate g => { stepped with st := .gate (st.decideGate stepped g) }
  | .eq _ | .drive | .amp _ _ _ _ _ | .cab _ | .mod _ _ | .delay | .loop | .volume =>
    { stepped with st := refitLfo st stepped }

def Copy.boundary (c : Copy) : Copy := { c with stages := c.stages.map Stage.boundary }

/-- A HOLD whose count has reached 0 (R74). -/
def Stage.holdEndDue (st : Stage) : Bool :=
  match st.st with
  | .gate g => g.st == .hold && g.hold == 0
  | .eq _ | .drive | .amp _ _ _ _ _ | .cab _ | .mod _ _ | .delay | .loop | .volume => false

/-- RELEASE from 32,768 at the end of HOLD (R74). -/
def Stage.holdEnd (st : Stage) : Stage :=
  match st.st with
  | .gate g => { st with st := .gate (g.startRamp .release 32768 (st.nat 4)) }
  | .eq _ | .drive | .amp _ _ _ _ _ | .cab _ | .mod _ _ | .delay | .loop | .volume => st

/-- A ramp has ended in this frame (R73): an ATTACK when k has reached its length, a RELEASE when its
gain has reached 0. -/
def NoiseGate.rampEnded (g : NoiseGate) : Bool :=
  match g.st with
  | .attack => 0 < g.k && 16 * g.len ≤ g.k
  | .release => 0 < g.k && g.gain == 0
  | .opened | .hold | .closed => false

def Stage.rampEndDue (st : Stage) : Bool :=
  match st.st with
  | .gate g => g.rampEnded
  | .eq _ | .drive | .amp _ _ _ _ _ | .cab _ | .mod _ _ | .delay | .loop | .volume => false

/-- The gate becomes OPEN or CLOSED at the end of its ramp (R73). -/
def Stage.rampEnd (st : Stage) : Stage :=
  match st.st with
  | .gate g => { st with st := .gate { g with st := if g.st = .attack then .opened else .closed } }
  | .eq _ | .drive | .amp _ _ _ _ _ | .cab _ | .mod _ _ | .delay | .loop | .volume => st

/-! ### One frame of a stage (R71, R73–R79) -/

/-- What a frame brings to the chains: the inbound samples and the tables. -/
structure FrameIn where
  a   : Int
  b   : Int
  ret : Int
  tbm : Tbm

/-- What a stage gives in a frame besides its output: its processed signal, its new state, its
clips and its loop send before the enable gain. -/
structure Processed where
  st    : StageState
  p     : Int
  clips : Nat
  loop  : Int

/-- The gain of a noise gate in a frame (R73). -/
def NoiseGate.frame (g : NoiseGate) (x : Int) : NoiseGate :=
  let g := { g with peak := max g.peak (x.natAbs : Int) }
  match g.st with
  | .opened | .hold => { g with gain := 32768 }
  | .closed => { g with gain := 0 }
  | .attack =>
    { g with k := g.k + 1
             gain := if 16 * g.len ≤ g.k + 1 then 32768
                     else g.start + rounded ((32768 - g.start) * (g.k + 1 : Nat)) (16 * g.len : Nat) }
  | .release =>
    { g with k := g.k + 1
             gain := if 16 * g.len ≤ g.k + 1 then 0
                     else g.start + rounded ((0 - g.start) * (g.k + 1 : Nat)) (16 * g.len : Nat) }

/-- The points of the shape table a stage references (R95). -/
def FrameIn.shape (f : FrameIn) (st : Stage) (i : Nat) : Int :=
  (f.tbm.word .shape ((shapeRef st.kind (st.params.map Param.set)).getD 0) i).toInt

/-- The coefficients of a biquad from five parameters on. -/
def Stage.coeffs (st : Stage) (i : Nat) : Coeffs :=
  { b0 := st.val i, b1 := st.val (i + 1), b2 := st.val (i + 2), a1 := st.val (i + 3)
    a2 := st.val (i + 4) }

/-- The triangle value of the LFO (R76 step 1). -/
def lfoTriangle (n pos : Nat) : Int := rounded (65536 * (min pos (n - pos) : Nat)) n

/-- The modulated delay in 1/256 frame (R76 step 2). -/
def modDelay (st : Stage) (pos : Nat) : Int :=
  clampTo 256 524032 (256 * st.val 2 + rounded (256 * st.val 1 * lfoTriangle (lfoPeriod st) pos) 32768)

/-- The processed signal of a stage from its input (R73–R79). A stage whose state is not of its
kind passes its input; no copy holds one. -/
def Stage.process (st : Stage) (f : FrameIn) (taps : List Word24) (x : Int) : Processed :=
  match st.kind, st.st with
  | .gate, .gate g =>
    let g := g.frame x
    ⟨.gate g, share x g.gain, 0, 0⟩
  | .eq, .eq h =>
    let r := biquad (st.coeffs 0) h x
    ⟨.eq r.2, r.1.val, r.1.clips, 0⟩
  | .drive, .drive =>
    let y := shaper (f.shape st) (st.val 1) 0 x
    let z := levelStep y.val (st.val 2)
    ⟨.drive, z.val, y.clips + z.clips, 0⟩
  | .amp, .amp pre e h1 h2 h3 =>
    let r0 := biquad (st.coeffs 0) pre x
    let y := shaper (f.shape st) (st.val 6) (sagOffset e (st.val 7)) r0.1.val
    let r1 := biquad (st.coeffs 10) h1 y.val
    let r2 := biquad (st.coeffs 15) h2 r1.1.val
    let r3 := biquad (st.coeffs 20) h3 r2.1.val
    let z := levelStep r3.1.val (st.val 25)
    ⟨.amp r0.2 (envelope (st.val 8) (st.val 9) e y.val) r1.2 r2.2 r3.2, z.val,
      r0.1.clips + y.clips + r1.1.clips + r2.1.clips + r3.1.clips + z.clips, 0⟩
  | .cab, .cab hist =>
    let y := fir taps hist x
    let z := levelStep y.val (st.val 2)
    ⟨.cab ((x :: hist).take (taps.length - 1)), z.val, y.clips + z.clips, 0⟩
  | .mod, .mod mem pos =>
    let d := modDelay st pos
    let i := (d / 256).toNat
    let q := d % 256
    let m0 := mem.getD (i - 1) 0
    let m1 := mem.getD i 0
    let tap := m0 + rounded ((m1 - m0) * q) 256
    let w := clampClip (x + share tap (st.val 4))
    ⟨.mod ((w.val :: mem).take Config.modLength) (if pos + 1 < lfoPeriod st then pos + 1 else 0),
      x + share (tap - x) (st.val 3), w.clips, 0⟩
  | .delay, .delay => ⟨.delay, x, 0, 0⟩
  | .loop, .loop =>
    let s := clampClip (share x (st.val 0))
    let r := clampClip (share f.ret (st.val 1))
    ⟨.loop, x + share (r.val - x) (st.val 2), s.clips + r.clips, s.val⟩
  | .volume, .volume =>
    let z := clampClip (share x (st.val 0))
    ⟨.volume, z.val, z.clips, 0⟩
  | _, other => ⟨other, x, 0, 0⟩

/-- A send into a delay line: the line, the send sample and the send level (R77, R111). -/
structure Send where
  line   : Nat
  sample : Int
  level  : Int

/-- What a chain gives in a frame (R70). -/
structure ChainOut where
  stages : List Stage
  out    : Int
  amp    : Option Int
  loop   : Int
  sends  : List Send
  clips  : Nat

/-- The stages in chain order (R70, R71): the enable gain moves, the stage output is the input moved
toward the processed signal by it, and the sends are weighted by it (R77, R78). -/
def runStages (f : FrameIn) (taps : List Word24) : List Stage → Int → ChainOut
  | [], x => { stages := [], out := x, amp := none, loop := 0, sends := [], clips := 0 }
  | st :: rest, x =>
    let e := moveGain st.gain st.enabled
    let p := st.process f taps x
    let r := runStages f taps rest (x + share (p.p - x) e)
    { stages := { st with gain := e, st := p.st, clips := satAdd st.clips p.clips } :: r.stages
      out := r.out
      amp := if st.kind = .cab then some x else r.amp
      loop := if st.kind = .loop then share p.loop e else r.loop
      sends :=
        match lineRef st.kind (st.params.map Param.set) with
        | some l => { line := l, sample := share x e, level := st.val 1 } :: r.sends
        | none => r.sends
      clips := p.clips + r.clips }

/-- The guitar sample an input select names (R47, R70, R82). -/
def inputOf (sel : Word24) (f : FrameIn) : Int :=
  match sel.toNat with
  | 1 => f.b
  | 2 => (f.a + f.b) / 2
  | _ => f.a

/-- One frame of a running copy (R70). -/
structure CopyFrame where
  copy     : Copy
  out      : Int
  amp      : Int
  loop     : Int
  sends    : List Send
  clips    : Nat
  mixClips : Nat

def Copy.run (c : Copy) (f : FrameIn) : CopyFrame :=
  let r := runStages f c.taps c.stages (inputOf c.inputSelect f)
  let z := levelStep r.out (min 65535 c.level.toNat : Nat)
  { copy := { c with stages := r.stages }, out := z.val, amp := r.amp.getD z.val, loop := r.loop
    sends := r.sends, clips := r.clips, mixClips := z.clips }

end Sys2Proof.Machine
end

