-- ==== Sys2Proof/Machine/Lines.lean ====
section
/-! DEFINITION. Delay lines (chapter 6): governing stage, times and tap fades, reading and writing,
binding, release, tails. -/

namespace Sys2Proof.Machine

/-! ### Governing stage and times (R109, R119, R120) -/

/-- The DELAY stage of a copy that references line `l` (R113: at most one). -/
def Copy.delayOn (c : Copy) (l : LineNo) : Option Stage :=
  c.stages.find? fun st => lineRef st.kind (st.params.map Param.set) == some l.val

/-- The stage that governs line `l`: the LIVE copy's, or else the FADING copy's (R109). -/
def Sce.governing (e : Sce) (l : LineNo) : Option Stage :=
  match e.live.bind (·.delayOn l) with
  | some st => some st
  | none => e.fading.bind (·.delayOn l)

/-- The effective time a stage asks for under beat period `P` (R119). -/
def effectiveTime (P : Nat) (st : Stage) : Nat :=
  if st.nat 2 = 0 then st.nat 3
  else max 1 (min (P * st.nat 4 / st.nat 5) Config.timeMax)

/-- A tap fade is in flight (R108). -/
def Line.fading (l : Line) : Bool := l.target != l.current

/-- A time change (R120). -/
def Line.setTime (t : Nat) (l : Line) : Line :=
  if l.mem.isEmpty then { l with current := t, target := t, held := none, position := 0 }
  else if l.fading then { l with held := if t = l.target then none else some t }
  else if t = l.current then l
  else { l with target := t, position := 0 }

/-- All the line parameters of the governing stage taken into the context (R109). Values equal to
those in force change nothing, so this is also how a single handed value is taken. -/
def Line.takeParams (P : Nat) (st : Stage) (l : Line) : Line :=
  Line.setTime (effectiveTime P st)
    { l with feedback := st.nat 6, wet := st.nat 7, pan := st.nat 8, tail := st.nat 9 == 1 }

/-- Line `l` takes the values its governing stage hands it, if it is LIVE (R109, R119). -/
def State.syncLine (l : LineNo) (s : State) : State :=
  if (s.dlu.lines.get l).state = .live then
    match s.sce.governing l with
    | some st => s.setLine l (Line.takeParams s.tck.period st)
    | none => s
  else s

/-- Every LIVE line takes the values its governing stage hands it. -/
def State.syncLines (s : State) : State := forEach four State.syncLine s

/-! ### Read and write (R110–R112, R114) -/

/-- The tap at delay `d`, 1 or more (R110). -/
def Line.tap (l : Line) (d : Nat) : Int := l.mem.getD (d - 1) 0

/-- The tap-fade position in this frame (R110 step 2). -/
def Line.advance (l : Line) : Line :=
  if l.fading then { l with position := l.position + 1 } else l

/-- The tap sample of the frame, after `advance` (R110). -/
def Line.sample (l : Line) : Int :=
  if l.fading then crossMix (l.tap l.target) (l.tap l.current) (32 * l.position : Nat)
  else l.tap l.current

/-- The wet output (R112). -/
def Line.wetOut (l : Line) : Int := share l.sample l.wet

/-- The fade factor (R114) under crossfade weight `w`, if a crossfade is in flight. -/
def Line.fadeFactor (w : Option Nat) (l : Line) : Nat :=
  match w with
  | none => Config.unity
  | some w =>
    if l.state = .live ∧ l.owner1.isNone ∧ ¬ l.tail then Config.unity - w else Config.unity

/-- The sum of the sends of one copy that reach line `l`, weighted (R111). -/
def sendSum (l : LineNo) (weight : Nat) (sends : List Send) : Int :=
  (sends.map fun d =>
    if d.line = l.val then share (share d.sample d.level) weight else 0).sum

/-- The write of a frame (R111): the terms summed exactly and clamped, and the block peak of a TAIL
line followed (R112). -/
def Line.write (terms : Int) (l : Line) : Clipped Line :=
  let c := clampClip (terms + share l.sample l.feedback)
  ⟨{ l with mem := (c.val :: l.mem).take Config.lineLength
            peak := if l.state = .tail then max l.peak l.wetOut.natAbs else l.peak }, c.clips⟩

/-! ### Lines across a switch (R113, R115, R116) -/

/-- A line bound, shared, adopted or left to the outgoing scene at a crossfade start (R113).
`incoming` is the incoming scene if its copy references the line. -/
def Line.bind (incoming outgoing : Option SceneNo) (l : Line) : Line :=
  match l.state, incoming with
  | .free, some n => { Line.free with state := .live, owner1 := some n }
  | .live, some n => { l with owner1 := some n, owner2 := outgoing }
  | .tail, some n =>
    { l with state := .live, owner1 := some n, owner2 := none, quiet := 0, age := 0, peak := 0
             expiry := false }
  | .live, none => { l with owner1 := none, owner2 := outgoing }
  | .free, none => l
  | .tail, none => l

/-- R115. -/
def Line.swapOwners (l : Line) : Line :=
  if l.state = .live then { l with owner1 := l.owner2, owner2 := l.owner1 } else l

/-- A line entering TAIL (R116). -/
def Line.toTail (l : Line) : Line :=
  { l with state := .tail, owner1 := none, owner2 := none, held := none, quiet := 0, age := 0
           peak := 0, expiry := false }

/-- A line at crossfade completion (R116); `loss`: the completion made at a link loss. -/
def Line.release (loss : Bool) (l : Line) : Line :=
  if l.state = .live then
    if l.owner1.isNone then (if l.tail ∧ ¬ loss then l.toTail else Line.free)
    else { l with owner2 := none }
  else l

/-- A line at a link loss (R122). -/
def Line.linkLoss (l : Line) : Line :=
  match l.state with
  | .live =>
    let t := l.held.getD l.target
    { l with current := t, target := t, held := none, position := 0, mem := [] }
  | .tail => Line.free
  | .free => l

/-! ### Tap fades and tails (R117, R121) -/

/-- The tap-fade position has reached 1,024 (R121). -/
def Line.fadeEndDue (l : Line) : Bool := l.state != .free && Config.tapFade ≤ l.position

/-- The end of a tap fade (R121). -/
def Line.fadeEnd (l : Line) : Line :=
  { l with current := l.target, target := l.held.getD l.target, held := none, position := 0 }

/-- The judgement of a TAIL line at a block boundary (R117). An expired line waits for
`Line.free`; any other has its block peak reset. -/
def Line.judge (threshold quietTime limit : Nat) (l : Line) : Line :=
  if l.state = .tail then
    let quiet := if l.peak < threshold then l.quiet + 1 else 0
    let age := l.age + 1
    if quietTime ≤ quiet ∨ limit * 3000 ≤ age then
      { l with quiet := quiet, age := age, expiry := true }
    else { l with quiet := quiet, age := age, peak := 0 }
  else l

/-- The tail has expired and the line has not yet entered FREE (R117 step 3). -/
def Line.expiryDue (l : Line) : Bool := l.state == .tail && l.expiry

end Sys2Proof.Machine
end

