-- ==== Sys2Proof/Machine/Engine.lean ====
section
/-! DEFINITION. One frame of the engine and of the delay lines (4.2, 4.3, 6.2): chains, lines, output
mix, mute gain, relock fade-in, peaks and clips. -/

namespace Sys2Proof.Machine

/-- The weight of the LIVE party, if a crossfade is in flight (R141). -/
def Crossfade.weight (x : Crossfade) : Nat := x.elapsed * 32768 / x.length

def State.weight (s : State) : Option Nat := s.swu.crossfade.map Crossfade.weight

/-- The tuner state is ENGAGED: the return stack holds a TUNER entry (R162, R194). -/
def State.engaged (s : State) : Bool := s.swu.stack.any fun e => e.reason == .tuner

/-- A mix of the LIVE and the FADING party's signals (R81, R82, R107). -/
def partyMix (w : Option Nat) (live fading : Int) : Int :=
  match w with
  | none => live
  | some w => crossMix live fading w

/-- The left and right parts a line adds to the FOH sums (R81), after `Line.advance`. -/
def Line.fohParts (w : Option Nat) (l : Line) : Int × Int :=
  if l.state = .free then (0, 0)
  else
    let g := share l.wetOut (l.fadeFactor w)
    (share g l.pan, share g (32768 - l.pan : Int))

/-- The sum of one side over the four lines. -/
def sumLines (f : Line → Int) (v : Vector Line 4) : Int := (v.toList.map f).sum

/-- A mixed output through the mute gain and the relock fade-in (R83, R84). -/
def gained (m f : Nat) (x : Int) : Int := share (share x m) f

/-- One frame of SCE and DLU (R70, R81–R84, R110–R112). -/
def State.audio (f : FrameIn) (s : State) : State :=
  let w := s.weight
  let live := s.sce.live.map (·.run f)
  let fading := s.sce.fading.map (·.run f)
  let lines := vmap Line.advance s.dlu.lines
  let m := partyMix w (live.elim f.a CopyFrame.out) (fading.elim f.a CopyFrame.out)
  let left := m + sumLines (fun l => (l.fohParts w).1) lines
  let right := m + sumLines (fun l => (l.fohParts w).2) lines
  let mute := moveGain s.sce.mute (!s.engaged)
  let fade := s.sce.fade
  let fohL := gained mute fade (clampSample left)
  let fohR := gained mute fade (clampSample right)
  let liveWeight := w.getD Config.unity
  let written := fun l : LineNo =>
    let x := lines.get l
    if x.state = .free then (⟨s.dlu.lines.get l, 0⟩ : Clipped Line)
    else x.write (sendSum l liveWeight (live.elim [] CopyFrame.sends)
      + sendSum l (Config.unity - liveWeight) (fading.elim [] CopyFrame.sends))
  let lineClips := (four.map fun l => (written l).clips).sum
  let mixClips := live.elim 0 CopyFrame.mixClips + fading.elim 0 CopyFrame.mixClips
    + clipOf left + clipOf right + lineClips
  let stageClips := live.elim 0 CopyFrame.clips + fading.elim 0 CopyFrame.clips
  { s with
    sce := { s.sce with
      live := live.map CopyFrame.copy
      fading := fading.map CopyFrame.copy
      mute := mute
      fade := min Config.unity (fade + Config.fadeStep)
      mixClips := satAdd s.sce.mixClips mixClips
      clip := s.sce.clip || 0 < mixClips + stageClips }
    dlu := { s.dlu with
      lines := #v[(written 0).val, (written 1).val, (written 2).val, (written 3).val] }
    sli := { s.sli with outbound := { s.sli.outbound with
      fohL := fohL
      fohR := fohR
      ampFeed := gained mute fade (partyMix w (live.elim f.a CopyFrame.amp) (fading.elim f.a CopyFrame.amp))
      direct := share (s.sce.live.elim f.a fun c => inputOf c.inputSelect f) fade
      loopSend := gained mute fade
        (partyMix w (live.elim 0 CopyFrame.loop) (fading.elim 0 CopyFrame.loop)) } } }

/-- The engine's part of an entry to LOCKED (R84): stage states, changes, gains, M and F. -/
def State.relockEngine (s : State) : State :=
  s.mapSce fun e =>
    { e with
      live := e.live.map Copy.relock
      fading := e.fading.map Copy.relock
      mute := if s.engaged then 0 else Config.unity
      fade := 0 }

/-- The copy a role names (R67). -/
def Sce.copy (e : Sce) : CopyRole → Option Copy
  | .live => e.live
  | .fading => e.fading

/-- The copy of a role changed. -/
def Sce.mapCopy (r : CopyRole) (f : Copy → Copy) (e : Sce) : Sce :=
  match r with
  | .live => { e with live := e.live.map f }
  | .fading => { e with fading := e.fading.map f }

/-- Stage number `k`, counted from 0, of the copy of a role. -/
def Sce.stage (e : Sce) (r : CopyRole) (k : Fin 10) : Option Stage :=
  (e.copy r).bind fun c => c.stages[k.val]?

/-- The LIVE stage with index 1–10, if there is one (R86, R87). -/
def Sce.liveStage (e : Sce) (idx : Nat) : Option Stage :=
  e.live.bind fun c => if idx = 0 then none else c.stages[idx - 1]?

/-- A change of a LIVE parameter's running value started (R85). -/
def Sce.startChange (idx i : Nat) (v : Int) (e : Sce) : Sce :=
  e.mapCopy .live (·.mapStage idx fun st =>
    { st with params := st.params.modify i (Param.startChange st.kind i v) })

/-- The action of TOGGLE_STAGE (R87): the flag reversed and the copy marked edited, or the code of
the check that fails. -/
def State.toggleStage (idx : Nat) (s : State) : State × Code :=
  match s.sce.live with
  | none => (s, .notPresent)
  | some _ =>
    match s.sce.liveStage idx with
    | none => (s, .range)
    | some _ =>
      (s.mapSce (Sce.mapCopy .live fun c =>
        { c.mapStage idx (fun st => { st with enabled := !st.enabled }) with edited := true }), .ok)

/-- The value an expression map gives for an accepted reading (R88). -/
def ExpMap.value (m : ExpMap) (v : Nat) : Int := m.min + (m.max - m.min) * v / 1023

/-- One expression map applied to an accepted reading of pedal `p` (R88). -/
def State.applyExpMap (p v : Nat) (i : Nat) (s : State) : State :=
  let m := s.tbm.expMap i
  if m.enabled ∧ m.pedal = p then
    match s.sce.liveStage m.stage with
    | none => s
    | some st =>
      if m.param < st.kind.count ∧ paramClass st.kind m.param ≠ .structural then
        s.mapSce (Sce.startChange m.stage m.param (paramClamp st.kind m.param (m.value v)))
      else s
  else s

/-- An accepted change of an expression pedal reaches the maps, in entry order (R88). -/
def State.applyExpMaps (p v : Nat) (s : State) : State :=
  forEach [0, 1, 2, 3] (fun i s => s.applyExpMap p v i) s

end Sys2Proof.Machine
end

