-- ==== Sys2Proof/Machine/Staging.lean ====
section
/-! DEFINITION. Staging slots, arm requests and the loader (7.1–7.3). -/

namespace Sys2Proof.Machine

/-- The first slot that satisfies `p`. -/
def Stg.find (g : Stg) (p : StgSlot → Bool) : Option SlotNo := four.find? fun i => p (g.slots.get i)

/-- The slot that holds scene `n` (R123: at most one). -/
def Stg.holding (g : Stg) (n : SceneNo) : Option SlotNo := g.find fun t => t.scene == some n

def Stg.liveSlot (g : Stg) : Option SlotNo := g.find fun t => t.state == .live
def Stg.fadingSlot (g : Stg) : Option SlotNo := g.find fun t => t.state == .fading
def Stg.preparing (g : Stg) : Option SlotNo := g.find fun t => t.state == .preparing

/-- The scene of the LIVE slot; `none` is NONE, passthrough (R123, R145). -/
def State.liveScene (s : State) : Option SceneNo :=
  s.stg.liveSlot.bind fun i => (s.stg.slots.get i).scene

/-- The scene of the FADING slot, or NONE. -/
def State.fadingScene (s : State) : Option SceneNo :=
  s.stg.fadingSlot.bind fun i => (s.stg.slots.get i).scene

/-- A slot enters EMPTY and leaves the arm queue and the ready order (R123). -/
def State.emptySlot (i : SlotNo) (s : State) : State :=
  s.mapStg fun g =>
    { g with slots := upd g.slots i StgSlot.vacant
             armQueue := g.armQueue.filter (· != i)
             readyOrder := g.readyOrder.filter (· != i) }

/-- The number of an origin in the ARM report (R131). -/
def Origin.value : Origin → Nat
  | .command => 0 | .request => 1 | .lookAhead => 2

/-- The ARM report about slot `i` (R131). -/
def State.armReport (i : SlotNo) (t : StgSlot) (code : Code) (s : State) : State :=
  s.raise .arm t.tag code
    [payload (byteOf t.scene <<< 16 + i.val <<< 8 + t.origin.value <<< 6)]

/-! ### Arm requests (R124, R125) -/

/-- An arm request. -/
structure ArmRequest where
  scene  : SceneNo
  pin    : Bool
  cuePin : Bool
  demand : Bool
  origin : Origin
  tag    : Byte

/-- The flags a request carries applied to a slot; a flag it does not carry is left (R124). -/
def StgSlot.flagged (a : ArmRequest) (t : StgSlot) : StgSlot :=
  { t with pinned := t.pinned || a.pin, cuePin := t.cuePin || a.cuePin
           demanded := t.demanded || a.demand }

/-- All three flags are clear: the slot may be evicted (R125). -/
def StgSlot.evictable (t : StgSlot) : Bool := !t.pinned && !t.cuePin && !t.demanded

/-- The slot that case 3 of R124 takes: the lowest EMPTY one, or the evictable one nearest the back
of the ready order. -/
def Stg.choose (g : Stg) : Option SlotNo :=
  match g.find fun t => t.state == .empty with
  | some i => some i
  | none => g.readyOrder.reverse.find? fun i => (g.slots.get i).evictable

/-- A slot taken for a request: it enters QUEUED at the tail of the arm queue (R124). -/
def State.queueSlot (i : SlotNo) (a : ArmRequest) (s : State) : State :=
  (s.emptySlot i).mapStg fun g =>
    { g with
      slots := upd g.slots i
        { StgSlot.vacant with state := .queued, scene := some a.scene, pinned := a.pin
                              cuePin := a.cuePin, demanded := a.demand, origin := a.origin
                              tag := a.tag, fresh := true }
      armQueue := g.armQueue ++ [i] }

/-- An arm request and its result (R124). -/
def State.armRequest (a : ArmRequest) (s : State) : State × Code :=
  if s.tbm.sceneValid a.scene then
    match s.stg.holding a.scene with
    | some i =>
      let st := (s.stg.slots.get i).state
      (s.setSlot i (·.flagged a), if st = .live ∨ st = .fading then .already else .ok)
    | none =>
      match s.stg.choose with
      | none => (s, .busy)
      | some i => (s.queueSlot i a, .accepted)
  else (s, .notPresent)

/-! ### The loader (R127–R130) -/

/-- A slot the loader may take at this boundary (R127). -/
def StgSlot.eligible (t : StgSlot) : Bool := t.state == .queued && !t.fresh

/-- The loader's choice, if it is idle and an eligible slot waits (R127), and no DISARM has put its next take
off to a later boundary (R132). -/
def Stg.loaderChoice (g : Stg) : Option SlotNo :=
  if g.preparing.isSome || g.loaderWaits then none
  else
    match g.armQueue.find? fun i => (g.slots.get i).eligible && (g.slots.get i).demanded with
    | some i => some i
    | none => g.armQueue.find? fun i => (g.slots.get i).eligible

/-- Every SHAPE and IR entry a record references is VALID (R128). -/
def Tbm.referencesValid (t : Tbm) (r : SceneRecord) : Bool :=
  (r.shapes.all fun n => t.valid .shape n) && r.irs.all fun n => t.valid .ir n

/-- The length of a preparation in blocks (R128). -/
def SceneRecord.preparation (r : SceneRecord) : Nat :=
  2 + (match r.taps with | some n => n / 128 | none => 0)

/-- The prepared image of scene `n`: its record and the first taps words of the referenced IR
(R128). -/
def Tbm.image (t : Tbm) (n : Nat) : Image :=
  let r := t.sceneRecord n
  { record := r
    taps :=
      match r.irs with
      | ir :: _ => t.mem.readAll (entryAddr .ir ir 0) (r.taps.getD 0)
      | [] => [] }

/-- Slot `i` leaves the arm queue and enters PREPARING (R127, R128). -/
def State.startPreparation (i : SlotNo) (blocks : Nat) (s : State) : State :=
  (s.setSlot i fun t => { t with state := .preparing, remaining := blocks }).mapStg fun g =>
    { g with armQueue := g.armQueue.filter (· != i) }

/-- The PREPARING slot whose preparation remaining has reached 0 (R128). -/
def Stg.prepared (g : Stg) : Option SlotNo :=
  g.find fun t => t.state == .preparing && t.remaining == 0

/-- The slot enters READY at the front of the ready order, with an ARM report OK (R129). -/
def State.completePreparation (i : SlotNo) (s : State) : State :=
  let t := s.stg.slots.get i
  ((s.setSlot i fun t =>
      { t with state := .ready, remaining := 0
               image := t.scene.map fun n => s.tbm.image n }).mapStg fun g =>
    { g with readyOrder := i :: g.readyOrder.filter (· != i) }).armReport i t .ok

/-- One block of a preparation in progress (R128). -/
def StgSlot.prepare (t : StgSlot) : StgSlot :=
  if t.state = .preparing then { t with remaining := t.remaining - 1 } else t

end Sys2Proof.Machine
end

