-- ==== Sys2Proof/Machine/Pitch.lean ====
section
/-! DEFINITION. The tuner's measurement (10.1–10.3, 10.5): tuner state, source, crossings, windows,
readings. -/

namespace Sys2Proof.Machine

/-! ### Tuner state (R194) -/

inductive TunerState where
  | off | background | engaged
  deriving DecidableEq, Repr

/-- ENGAGED while the return stack holds a TUNER entry, the mode otherwise (R194). -/
def State.tunerState (s : State) : TunerState :=
  if s.engaged then .engaged
  else match s.tun.mode with
    | .off => .off
    | .background => .background

/-- A window restart (R200): the measurement returns to its start, the pacing count is kept. -/
def Tun.restartWindow (t : Tun) : Tun :=
  { t with index := 0, previous := none, armed := false, lastCross := none, periods := []
           reading := none, silence := 0 }

/-- Measurement follows a change of the tuner state from `old` (R194, R201). -/
def State.followTuner (old : TunerState) (s : State) : State :=
  match old, s.tunerState with
  | .off, .off => s
  | .off, .background => s.mapTun fun t => { t.restartWindow with pacing := 0, pacingDue := false }
  | .off, .engaged => s.mapTun fun t => { t.restartWindow with pacing := 0, pacingDue := false }
  | .background, .off => s.mapTun fun t => { t.restartWindow with pacingDue := false }
  | .engaged, .off => s.mapTun fun t => { t.restartWindow with pacingDue := false }
  | .background, .background => s
  | .background, .engaged => s
  | .engaged, .background => s
  | .engaged, .engaged => s

/-- The scene of the LIVE slot has changed: under FOLLOW the window restarts (R201). -/
def State.tunerSceneChange (s : State) : State :=
  if s.tun.source = .follow ∧ s.tunerState ≠ .off then s.mapTun Tun.restartWindow else s

/-! ### Source (R195) -/

/-- The effective source is GUITAR_B (R195). -/
def State.sourceIsB (s : State) : Bool :=
  match s.tun.source with
  | .a => false
  | .b => true
  | .follow =>
    match s.stg.liveSlot.bind fun i => (s.stg.slots.get i).image with
    | some im => im.record.inputSelect.toNat == 1
    | none => false

/-! ### Readings (R197, R198) -/

/-- The largest `lo + j`, `j` at most `k`, that satisfies `p`, for a `p` that holds up to some point
and not beyond it; `lo` if none does. -/
def searchDown (p : Int → Bool) (lo : Int) : Nat → Int
  | 0 => lo
  | k + 1 => if p (lo + (k + 1 : Nat)) then lo + (k + 1 : Nat) else searchDown p lo k

/-- (a / b) ^ k is at least 2 ^ e, decided exactly. -/
def ratioAtLeast (a b k : Nat) (e : Int) : Bool :=
  b ^ k * 2 ^ e.toNat ≤ a ^ k * 2 ^ (-e).toNat

/-- The note number of f / r, f = 49,152,000 / sum (R198 step 1): x / 100 rounded upward at a half,
that is, the largest n with (f / r) ^ 24 ≥ 2 ^ (2 n − 1). -/
def noteNumber (sum r : Nat) : Int :=
  searchDown (fun n => ratioAtLeast 49152000 (sum * r) 24 (2 * n - 1)) (-60) 100

/-- The cents beside note `n` (R198 step 2): the largest c with
(f / r) ^ 2,400 ≥ 2 ^ (200 n + 2 c − 1). -/
def noteCents (sum r : Nat) (n : Int) : Int :=
  searchDown (fun c => ratioAtLeast 49152000 (sum * r) 2400 (200 * n + 2 * c - 1)) (-50) 100

/-- The reading of a stable window within range (R198). -/
def pitchOf (sum r : Nat) : Pitch :=
  let n := noteNumber sum r
  { note := (clampTo 0 95 (n + 57)).toNat, cents := noteCents sum r n
    freq := (1572864000 + sum) / (2 * sum) }

/-- The window judged (R197). -/
def Tun.judge (t : Tun) : Tun :=
  match t.periods with
  | [a, b, c, d] =>
    let sum := a + b + c + d
    let largest := max (max a b) (max c d)
    let smallest := min (min a b) (min c d)
    if (largest - smallest) * 128 ≤ sum then
      if 30720 ≤ sum ∧ sum ≤ 2457600 then
        { t with reading := some (pitchOf sum.toNat t.reference) }
      else { t with reading := none }
    else t
  | _ => t

/-! ### Measurement (R196) -/

/-- A crossing between the previous sample `p` and `x` (R196 step 1). -/
def Tun.cross (p x : Int) (t : Tun) : Tun :=
  let d := x - p
  let time := 256 * ((t.index : Int) - 1) + (512 * (-p) + d) / (2 * d)
  let periods :=
    match t.lastCross with
    | none => t.periods
    | some l => (t.periods ++ [time - l]).drop (t.periods.length + 1 - 4)
  Tun.judge { t with armed := false, lastCross := some time, periods := periods, silence := 0 }

/-- One measured sample, steps 1 to 3 of R196, with the count of step 4. -/
def Tun.measure (x : Int) (t : Tun) : Tun :=
  let crossed := t.previous.isSome && t.armed && decide (0 < x)
  let u := if crossed then t.cross (t.previous.getD 0) x
           else { t with silence := t.silence + 1 }
  { u with armed := u.armed || decide (x ≤ -Config.tunerArm), previous := some x
           index := u.index + 1 }

/-- The tuner's part of a frame: nothing is measured while the state is OFF (R194, R196). -/
def State.measure (x : Int) (s : State) : State :=
  if s.tunerState = .off then s else s.mapTun (Tun.measure x)

/-- 4,800 measured frames without a crossing (R196 step 4). -/
def Tun.silenceDue (t : Tun) : Bool := Config.silenceFrames ≤ t.silence

/-- The list and the last crossing emptied, the reading NO_PITCH; the count starts again. -/
def Tun.fallSilent (t : Tun) : Tun :=
  { t with periods := [], lastCross := none, reading := none, silence := 0 }

/-- The TUNE record of the reading as it stands (R199). -/
def State.tuneReport (s : State) : State :=
  let src := if s.sourceIsB then 1 <<< 21 else 0
  let eng := if s.engaged then 1 <<< 22 else 0
  match s.tun.reading with
  | none => s.raise .tune 0 .ok [0, 0]
  | some p =>
    s.raise .tune 0 .ok
      [payload (1 <<< 23 + eng + src + p.note <<< 8 + (p.cents % 256).toNat), payload p.freq]

end Sys2Proof.Machine
end

