-- ==== Sys2Proof/Machine/Switching.lean ====
section
/-! DEFINITION. Switch requests, the pending switch, crossfades and reversals (7.4, 7.5), base
switches and the return stack (8.3). -/

namespace Sys2Proof.Machine

/-! ### Reports and the destination (R135, R144) -/

/-- The SWITCH report of R144. -/
def State.switchReport (r : Request) (code : Code) (frm dest : Option SceneNo)
    (reversed edits : Bool) (s : State) : State :=
  s.raise .switch r.tag code
    [payload (byteOf frm <<< 16 + byteOf dest <<< 8 + r.source.value <<< 6
        + (if reversed then 2 else 0) + (if edits then 1 else 0)),
     payload (byteOf r.gate <<< 16 + byteOf r.owner <<< 8)]

/-- A reversal request is held (R142). -/
def State.reversalHeld (s : State) : Bool :=
  s.swu.crossfade.any fun x => x.reversal.isSome

/-- The destination: the live scene, or the fading party while a reversal request is held (R135). -/
def State.destination (s : State) : Option SceneNo :=
  if s.reversalHeld then s.fadingScene else s.liveScene

/-- The other party of a crossfade than the destination (R135 case 2). -/
def State.otherParty (s : State) : Option SceneNo :=
  if s.reversalHeld then s.liveScene else s.fadingScene

/-- The demanded flag of the slot that holds a scene cleared (R137). -/
def State.clearDemand (n : Option SceneNo) (s : State) : State :=
  match n.bind fun n => s.stg.holding n with
  | some i => s.setSlot i fun t => { t with demanded := false }
  | none => s

/-- The pending switch, if present, ends without starting, with a SWITCH report (R138). -/
def State.removePending (code : Code) (frm : Option SceneNo) (s : State) : State :=
  match s.swu.pending with
  | none => s
  | some p =>
    ((s.mapSwu fun u => { u with pending := none }).clearDemand p.req.target).switchReport
      p.req code frm p.req.target false false

/-- R138, with the destination at that moment in the from field. -/
def State.refusePending (code : Code) (s : State) : State := s.removePending code s.destination

/-- The pending switch waits on the slot (R64, R132). -/
def State.pendingOn (n : Option SceneNo) (s : State) : Bool :=
  n.isSome && s.swu.pending.any fun p => p.req.target == n

/-! ### Requests (R135, R136) -/

/-- The request becomes the pending switch (R136). -/
def State.makePending (r : Request) (s : State) : State :=
  s.mapSwu fun u =>
    { u with pending := some { req := r, passed := r.quantize == .none, fresh := true } }

/-- Case 3 of R135. -/
def State.newPending (r : Request) (s : State) : State × Code :=
  let s := s.refusePending .superseded
  match r.target with
  | none => (s.makePending r, .accepted)
  | some n =>
    let a := s.armRequest { scene := n, pin := false, cuePin := false, demand := true
                            origin := .request, tag := r.tag }
    match a.2 with
    | .notPresent => (s, .notPresent)
    | .busy => (s, .busy)
    | _ => (a.1.makePending r, .accepted)

/-- The held reversal request of the crossfade record replaced. -/
def State.setReversal (r : Option Request) (s : State) : State :=
  s.mapSwu fun u =>
    { u with crossfade := u.crossfade.map fun x =>
        { x with reversal := r, reversalFresh := r.isSome } }

/-- Case 2 of R135: the request is held as the reversal request, or withdraws the one held. -/
def State.turnRequest (r : Request) (s : State) : State × Code :=
  let frm := s.destination
  match s.swu.crossfade.bind Crossfade.reversal with
  | none => ((s.removePending .superseded frm).setReversal (some r), .accepted)
  | some h =>
    (((s.setReversal none).switchReport h .superseded frm h.target false false).removePending
      .superseded frm, .already)

/-- A switch request and its result (R135). -/
def State.switchRequest (r : Request) (s : State) : State × Code :=
  if r.target = s.destination then (s.refusePending .superseded, .already)
  else if s.swu.crossfade.isSome ∧ r.target = s.otherParty then s.turnRequest r
  else s.newPending r

/-! ### Crossfades (R139–R143, R145, R146) -/

/-- The conditions of R139. -/
def State.startReady (s : State) : Bool :=
  s.swu.crossfade.isNone &&
  match s.swu.pending with
  | none => false
  | some p =>
    p.passed && !p.fresh &&
    match p.req.target with
    | none => true
    | some n =>
      match s.stg.holding n with
      | some i => (s.stg.slots.get i).state == .ready
      | none => false

/-- The length of the crossfade a request starts (R140 step 2). -/
def crossfadeLength (r : Request) (im : Option Image) : Nat :=
  match r.override with
  | some c => Config.fadeLength c
  | none =>
    match im with
    | some im => Config.fadeLength im.record.fadeCode.toNat
    | none => Config.noneFade

/-- A crossfade in flight is completed (R143). `loss`: at a link loss, without a SWITCH report and
with every TAIL release made to FREE (R146). A reversal request still held ends here (log 11). -/
def State.completeCrossfade (loss : Bool) (s : State) : State :=
  match s.swu.crossfade with
  | none => s
  | some x =>
    let frm := s.fadingScene
    let dest := s.liveScene
    let edits := s.sce.fading.any Copy.edited
    let s :=
      match s.stg.fadingSlot with
      | none => s
      | some i =>
        (s.setSlot i fun t => { t with state := .ready }).mapStg fun g =>
          { g with readyOrder := i :: g.readyOrder.filter (· != i) }
    let s := s.mapSce fun e => { e with fading := none }
    let s := s.mapDlu fun d => { d with lines := vmap (Line.release loss) d.lines }
    let s := s.mapSwu fun u => { u with crossfade := none }
    let s := s.syncLines
    if loss then s
    else
      let s := s.switchReport x.served .ok frm dest x.reversed edits
      match x.reversal with
      | none => s
      | some r => s.switchReport r .superseded dest r.target false false

/-- The incoming scene of a binding if its copy references the line (R113). -/
def incomingOn (copy : Option Copy) (n : Option SceneNo) (l : LineNo) : Option SceneNo :=
  if (copy.bind (·.delayOn l)).isSome then n else none

/-- DLU binds the lines at a crossfade start (R113). -/
def State.bindLines (copy : Option Copy) (incoming outgoing : Option SceneNo) (s : State) : State :=
  forEach four (fun l s => s.setLine l (Line.bind (incomingOn copy incoming l) outgoing)) s

/-- A pending switch starts (R140). -/
def State.startCrossfade (s : State) : State :=
  match s.swu.pending with
  | none => s
  | some p =>
    let s := (s.mapSwu fun u => { u with pending := none }).clearDemand p.req.target
    let slot := p.req.target.bind fun n => s.stg.holding n
    let image := slot.bind fun i => (s.stg.slots.get i).image
    let length := crossfadeLength p.req image
    let outgoing := s.liveScene
    let s :=
      match s.stg.liveSlot with
      | none => s
      | some i => s.setSlot i fun t => { t with state := .fading }
    let s :=
      match slot with
      | none => s
      | some i =>
        (s.setSlot i fun t => { t with state := .live, pinned := false }).mapStg fun g =>
          { g with readyOrder := g.readyOrder.filter (· != i) }
    let copy := image.map Copy.ofImage
    let s := s.mapSce fun e => { e with fading := e.live, live := copy }
    let s := s.bindLines copy p.req.target outgoing
    let s := s.mapSwu fun u =>
      { u with crossfade := some { length := length, elapsed := 0, served := p.req
                                   reversed := false, reversal := none, reversalFresh := false } }
    let s := s.syncLines.tunerSceneChange
    if length = 0 then s.completeCrossfade false else s

/-- The roles of the LIVE and FADING slots exchanged (R142 step 1). -/
def StgSlot.swapRole (t : StgSlot) : StgSlot :=
  match t.state with
  | .live => { t with state := .fading }
  | .fading => { t with state := .live, pinned := false }
  | .empty => t
  | .queued => t
  | .preparing => t
  | .ready => t

/-- A held reversal request is taken (R142). -/
def State.takeReversal (s : State) : State :=
  match s.swu.crossfade with
  | none => s
  | some x =>
    match x.reversal with
    | none => s
    | some r =>
      let frm := s.destination
      let s := s.mapStg fun g => { g with slots := vmap StgSlot.swapRole g.slots }
      let s := s.mapSce fun e => { e with live := e.fading, fading := e.live }
      let s := s.mapDlu fun d => { d with lines := vmap Line.swapOwners d.lines }
      let s := s.mapSwu fun u =>
        { u with crossfade := some { x with elapsed := x.length - x.elapsed, served := r
                                            reversed := true, reversal := none
                                            reversalFresh := false } }
      (s.syncLines.tunerSceneChange).switchReport x.served .superseded frm x.served.target
        false false

/-- A reversal request is held and a frame has been processed since (R142). -/
def State.reversalDue (s : State) : Bool :=
  s.swu.crossfade.any fun x => x.reversal.isSome && !x.reversalFresh

/-- The crossfade completes at this boundary: its C frames are processed and no reversal is taken
instead (R141–R143). -/
def State.completionDue (s : State) : Bool :=
  !s.reversalDue && s.swu.crossfade.any fun x => x.length ≤ x.elapsed

/-! ### Base switches and the return stack (R162–R168) -/

/-- A base switch and its result (R167). -/
def State.baseSwitch (r : Request) (s : State) : State × Code :=
  if s.swu.stack.isEmpty then s.switchRequest r
  else
    let s := s.mapSwu fun u =>
      { u with stack := u.stack.map fun e => { e with saved := r.target } }
    if r.source = .cue then (s, .ok) else s.switchRequest r

/-- The scene a push saves: the target of the pending switch, or else the destination (R162). -/
def State.savedByPush (s : State) : Option SceneNo :=
  match s.swu.pending with
  | some p => p.req.target
  | none => s.destination

/-- An entry pushed on top (R162). -/
def State.push (reason : Reason) (owner : Option SwitchNo) (s : State) : State :=
  let old := s.tunerState
  (s.mapSwu fun u =>
    { u with stack := u.stack ++ [{ saved := s.savedByPush, reason := reason, owner := owner }] }
    ).followTuner old

/-- The top entry removed (R164 step 1). -/
def State.dropTop (s : State) : State :=
  let old := s.tunerState
  (s.mapSwu fun u => { u with stack := u.stack.dropLast }).followTuner old

/-- The first entry that satisfies `p` removed; the entry directly above takes its saved scene
(R166). -/
def dropInherit (p : StackEntry → Bool) : List StackEntry → List StackEntry
  | [] => []
  | e :: es =>
    if p e then
      match es with
      | [] => []
      | a :: rest => { a with saved := e.saved } :: rest
    else e :: dropInherit p es

/-- A lower entry removed without a switch (R166, R168). -/
def State.dropLower (p : StackEntry → Bool) (s : State) : State :=
  let old := s.tunerState
  (s.mapSwu fun u => { u with stack := dropInherit p u.stack }).followTuner old

/-- Who makes a pop: its source, gate, owner footswitch and tag (R164). -/
structure PopBy where
  source : Source
  gate   : Option GateNo
  owner  : Option SwitchNo
  tag    : Byte

/-- A pop and its result (R164). -/
def State.pop (by_ : PopBy) (s : State) : State × Code :=
  match s.swu.stack.getLast? with
  | none => (s, .stackEmpty)
  | some e =>
    let s := s.dropTop
    if s.swu.pending.any fun p => p.req.target == e.saved then (s, .accepted)
    else
      s.switchRequest { target := e.saved, source := by_.source, quantize := .none, override := none
                        gate := by_.gate, owner := by_.owner, tag := by_.tag }

/-- An owner release of footswitch `f`, if an entry is owned by it (R166). -/
def State.ownerRelease (f : SwitchNo) (s : State) : State :=
  if s.swu.stack.getLast?.any fun e => e.owner == some f then
    (s.pop { source := .foot, gate := none, owner := some f, tag := 0 }).1
  else s.dropLower fun e => e.owner == some f

/-- An entry owned by footswitch `f` is held (R166). -/
def State.owned (f : SwitchNo) (s : State) : Bool := s.swu.stack.any fun e => e.owner == some f

end Sys2Proof.Machine
end

