-- ==== Sys2Proof/Machine/Beat.lean ====
section
/-! DEFINITION. The tempo clock (9.1): beat and bar boundaries, periods, taps and the click, and
what a boundary asks of SWU and CSQ. -/

namespace Sys2Proof.Machine

/-! ### Boundaries (R136, R171–R173, R179, R180, R185, R188, R190) -/

/-- A pending switch at a beat boundary (R136). Behind a block boundary that has been taken after the
same frame, a switch that it latches waits for a frame, and so for the next block boundary (R172). -/
def Pending.latch (bar atBlock : Bool) (p : Pending) : Pending :=
  let counts := p.req.quantize == .beat || (bar && p.req.quantize == .bar)
  { p with passed := p.passed || counts, fresh := p.fresh || (atBlock && counts && !p.passed) }

/-- The boundary-passed flag latched by a beat boundary (R136, R172). -/
def State.latchPending (bar : Bool) (s : State) : State :=
  s.mapSwu fun u => { u with pending := u.pending.map (Pending.latch bar s.frame.atBlock) }

/-- A start with a count-in waits for its first bar (R184, R185). -/
def Csq.countInWaits (c : Csq) : Bool := c.waiting.any fun w => 0 < w.countIn

/-- CSQ takes a beat boundary (R185, R188, R190): it counts, and where the boundary calls for a cue
event, the event is due and is taken next. -/
def Csq.takeBoundary (advancing bar : Bool) (c : Csq) : Csq :=
  match c.state with
  | .idle => if bar && c.countInWaits then { c with due := some .countInStart } else c
  | .countIn =>
    if advancing && bar then
      { c with barsLeft := c.barsLeft - 1
               due := if c.barsLeft - 1 = 0 then some .countInEnd else c.due }
    else c
  | .running | .vamping | .held =>
    match c.heldOp with
    | some .advance => { c with due := some .heldAdvance }
    | some .skip => { c with due := some .heldSkip }
    | none =>
      if advancing && c.state != .held && 0 < c.remaining then
        { c with remaining := c.remaining - 1
                 due := if c.remaining - 1 = 0 then
                          some (if c.state = .vamping then .vampReload else .cueEnd)
                        else c.due }
      else c

/-- Whether a beat boundary clicks, with the sequencer as CSQ leaves it (R180). -/
def State.clicks (s : State) : Bool :=
  match s.tck.clickMode with
  | .on => true
  | .off => s.csq.state == .countIn
  | .countInOnly => s.csq.state == .countIn || s.csq.countInWaits

/-- The click generator takes a beat boundary (R179). -/
def State.clickBoundary (s : State) : State :=
  if s.clicks then
    s.mapTck fun t =>
      { t with burstPos := 0, burst := some (if t.beat = 1 then .accent else .normal) }
  else s

/-- A beat boundary handed to its consumers (R172). Where CSQ has a cue event due, the click is
judged once that event is taken (R180). -/
def State.raiseBoundary (advancing bar : Bool) (s : State) : State :=
  let s := (s.latchPending bar).mapCsq (Csq.takeBoundary advancing bar)
  if s.csq.due.isSome then s else s.clickBoundary

/-- The beat after the beat in bar (R171). -/
def Tck.nextBeat (t : Tck) : Nat := if t.meter ≤ t.beat then 1 else t.beat + 1

/-- An advancing boundary (R171). -/
def State.advancingBoundary (s : State) : State :=
  let beat := s.tck.nextBeat
  (s.mapTck fun t => { t with phase := 0, beat := beat }).raiseBoundary true (beat == 1)

/-- A restart boundary (9.1, R173). -/
def State.restartBoundary (s : State) : State :=
  (s.mapTck fun t => { t with phase := 0 }).raiseBoundary false (s.tck.beat == 1)

/-- The rise of the phase at the end of a frame (R171). -/
def State.risePhase (s : State) : State :=
  if s.tck.period ≤ s.tck.phase + 1 then s.advancingBoundary
  else s.mapTck fun t => { t with phase := t.phase + 1 }

/-! ### Periods (R173, R174) -/

/-- The period of a tempo in hundredths of BPM, clamped to 2,000–24,000 (R174). -/
def periodOf (tempo : Nat) : Nat :=
  let t := max 2000 (min tempo 24000)
  (288000000 + t / 2) / t

/-- A new beat period from TEMPO or a cue record (R173): it closes the tap series, raises a restart
boundary unless the phase is 0, and is handed to DLU (R119). -/
def State.takePeriod (P : Nat) (s : State) : State :=
  let mid := s.tck.phase ≠ 0
  let s := s.mapTck fun t => { t with period := P, tapOpen := false, tapHistory := [] }
  (if mid then s.restartBoundary else s).syncLines

/-! ### Taps (R176, R177) -/

/-- The TEMPO report of R177. -/
def State.tempoReport (src : Source) (tag : Byte) (advanced : Bool) (s : State) : State :=
  s.raise .tempo tag .ok
    [payload (src.value <<< 22 + (if advanced then 1 <<< 21 else 0)
      + s.tck.tapHistory.length <<< 18 + s.tck.period)]

/-- A tap that has appended an interval sets the period and raises its boundary (R177). -/
def State.tapPeriod (src : Source) (tag : Byte) (s : State) : State :=
  let old := s.tck.period
  let phase := s.tck.phase
  let P := s.tck.tapHistory.sum / s.tck.tapHistory.length
  let s := s.mapTck fun t => { t with period := P }
  let late := decide (phase ≠ 0) && decide (old ≤ phase * 2)
  let s := if phase = 0 then s else if late then s.advancingBoundary else s.restartBoundary
  s.syncLines.tempoReport src tag late

/-- A tap and its result (R176). -/
def State.tapEvent (src : Source) (tag : Byte) (s : State) : State × Code :=
  let t := s.tck
  if !t.tapOpen then
    (s.mapTck fun t => { t with tapOpen := true, tapCount := 0, tapHistory := [] }, .ok)
  else if t.tapCount < Config.periodMin then (s, .skipped)
  else if t.tapCount ≤ Config.periodMax then
    let history := (t.tapHistory ++ [t.tapCount]).drop (t.tapHistory.length + 1 - 4)
    ((s.mapTck fun t => { t with tapHistory := history, tapCount := 0 }).tapPeriod src tag, .ok)
  else (s.mapTck fun t => { t with tapHistory := [], tapCount := 0 }, .ok)

/-! ### The click sample (R178) -/

/-- The click sample at position `k` of a burst (R178). -/
def clickSample (kind : BurstKind) (k : Nat) (level : Nat) : Int :=
  let a : Int := (4194304 * (480 - k) + 240) / 480
  let positive := match kind with
    | .accent => decide (k % 32 < 16)
    | .normal => decide (k % 48 < 24)
  share (if positive then a else -a) level

/-- The click sample of a frame; 0 when no burst is in progress (R178). -/
def Tck.sample (t : Tck) : Int :=
  match t.burst with
  | some .accent => if t.burstPos < 480 then clickSample .accent t.burstPos t.accentLevel else 0
  | some .normal => if t.burstPos < 480 then clickSample .normal t.burstPos t.normalLevel else 0
  | none => 0

/-- The burst position has reached 480 (R178). -/
def Tck.burstEndDue (t : Tck) : Bool := t.burst.isSome && Config.burstLength ≤ t.burstPos

/-- One frame of the tempo clock but for the phase: the burst position and the tap interval count
rise (R176, R178). -/
def Tck.frame (t : Tck) : Tck :=
  { t with burstPos := if t.burst.isSome then min Config.burstLength (t.burstPos + 1) else t.burstPos
           tapCount := if t.tapOpen then min Config.tapCountMax (t.tapCount + 1) else t.tapCount }

end Sys2Proof.Machine
end

