-- ==== Sys2Proof/Machine/Cues.lean ====
section
/-! DEFINITION. The cue sequencer (9.2): loads, look-ahead, ends, operations, and the cue events a
beat boundary calls for. -/

namespace Sys2Proof.Machine

/-! ### Reports (R191) -/

inductive EndReason where
  | noContinue | memoryEnd | stopped
  deriving DecidableEq, Repr

def EndReason.value : EndReason → Nat
  | .noContinue => 1 | .memoryEnd => 2 | .stopped => 3

/-- A CUE report about record `i` (R191). -/
def State.cueReport (code : Code) (event reason i beats : Nat) (look : Bool) (bars : Nat)
    (s : State) : State :=
  s.raise .cue s.csq.tag code
    [payload (event <<< 22 + reason <<< 20 + s.csq.list.val <<< 16 + i),
     payload (byteOf (s.tbm.cue i).scene <<< 16 + beats <<< 4 + (if look then 8 else 0) + bars)]

/-! ### Loading (R186, R187) -/

/-- The cue-pin flag of every slot that carries it cleared (R187, R189). -/
def State.clearCuePins (s : State) : State :=
  s.mapStg fun g => { g with slots := vmap (fun t => { t with cuePin := false }) g.slots }

/-- The tempo of a cue record, if it is present, applied (R186 step 1, R173). -/
def State.applyTempo (tempo : Nat) (s : State) : State :=
  if tempo = 0 then s else s.takePeriod (periodOf tempo)

/-- The look-ahead of a load of record `i` (R187); whether an arm found or took a slot. -/
def State.lookAhead (i : Nat) (s : State) : State × Bool :=
  let s := s.clearCuePins
  if (s.tbm.cue i).cont ∧ i + 1 ≤ 1023 then
    let s := s.mapCsq fun c => { c with lookAhead := some (i + 1) }
    match (s.tbm.cue (i + 1)).scene with
    | none => (s, false)
    | some n =>
      let a := s.armRequest { scene := n, pin := false, cuePin := true, demand := false
                              origin := .lookAhead, tag := 0 }
      (a.1, a.2 == .ok || a.2 == .already || a.2 == .accepted)
  else (s.mapCsq fun c => { c with lookAhead := none }, false)

/-- The code of a LOADED report: OK unless the switch request was refused (R186 step 4). -/
def loadedCode (c : Code) : Code :=
  match c with
  | .notPresent => .notPresent
  | .busy => .busy
  | _ => .ok

/-- The base switch a record makes when it is loaded (R186 step 3). -/
def State.cueSwitch (q : Cue) (s : State) : State × Code :=
  match q.scene with
  | none => (s, .ok)
  | some n =>
    s.baseSwitch { target := some n, source := .cue
                   quantize := if q.quant then .bar else .none
                   override := none, gate := none, owner := none, tag := 0 }

/-- Record `i` loaded (R186). The look-ahead is worked out before the LOADED report is queued, which
carries its outcome; it queues no report of its own. -/
def State.loadRecord (i : Nat) (s : State) : State :=
  let q := s.tbm.cue i
  let s := s.applyTempo q.tempo
  let s := s.mapCsq fun c =>
    { c with current := some i, remaining := q.length, state := .running }
  let sw := s.cueSwitch q
  let la := sw.1.lookAhead i
  la.1.cueReport (loadedCode sw.2) 1 0 i q.length la.2 0

/-! ### Ends (R188–R190) -/

/-- A list end with its LIST_END report about record `i` (R189). -/
def State.listEnd (reason : EndReason) (i beats : Nat) (s : State) : State :=
  (s.clearCuePins.mapCsq fun c =>
    { c with heldOp := none, current := none, lookAhead := none, state := .idle }).cueReport
      .ok 2 reason.value i beats false 0

/-- The remaining beats written into the record's residue, if its RESIDUE flag is set (R54). -/
def State.leaveResidue (i : Nat) (s : State) : State :=
  if (s.tbm.cue i).residue then s.mapTbm fun t => t.writeResidue i s.csq.remaining else s

/-- The next record is loaded or the list ends, after record `i` (R188). -/
def State.followOn (i : Nat) (s : State) : State :=
  if (s.tbm.cue i).cont then
    if i + 1 ≤ 1023 then s.loadRecord (i + 1) else s.listEnd .memoryEnd i s.csq.remaining
  else s.listEnd .noContinue i s.csq.remaining

/-- The current cue ends: the residue, then the next record or the end (R188, R190 ADVANCE). -/
def State.endCue (s : State) : State :=
  match s.csq.current with
  | none => s
  | some i => (s.leaveResidue i).followOn i

/-- A held SKIP carried out (R190). -/
def State.skipCue (s : State) : State :=
  match s.csq.current with
  | none => s
  | some i =>
    if !(s.tbm.cue i).cont then s.listEnd .noContinue i s.csq.remaining
    else if 1023 ≤ i then s.listEnd .memoryEnd i s.csq.remaining
    else if !(s.tbm.cue (i + 1)).cont then s.listEnd .noContinue (i + 1) s.csq.remaining
    else if 1023 ≤ i + 1 then s.listEnd .memoryEnd (i + 1) s.csq.remaining
    else s.loadRecord (i + 2)

/-- A list or a waiting start ended as STOP ends it (R184, R189). -/
def State.stopList (s : State) : State :=
  match s.csq.state with
  | .idle =>
    match s.csq.waiting with
    | none => s
    | some w =>
      (s.mapCsq fun c => { c with waiting := none, list := w.list }).listEnd .stopped w.start 0
  | .countIn => s.listEnd .stopped (s.csq.current.getD 0) 0
  | .running | .vamping | .held =>
    match s.csq.current with
    | none => s.listEnd .stopped 0 s.csq.remaining
    | some i => (s.leaveResidue i).listEnd .stopped i s.csq.remaining

/-! ### Starts (R184, R185) -/

/-- An accepted start: what runs or waits is ended, and the new start waits (R184). -/
def State.startList (l : Fin 16) (start countIn : Nat) (tag : Byte) (s : State) : State :=
  s.stopList.mapCsq fun c =>
    { c with waiting := some { list := l, start := start, countIn := countIn, fresh := true }
             tag := tag }

/-- The start made by CUE_START or a CUE_START gate, and its result (R184). -/
def State.cueStart (l : Fin 16) (countIn : Nat) (tag : Byte) (s : State) : State × Code :=
  match s.tbm.cueStart l with
  | none => (s, .notPresent)
  | some start => (s.startList l start countIn tag, .accepted)

/-- A waiting start without count-in that a block boundary begins (R185). -/
def Csq.beginDue (c : Csq) : Bool := c.waiting.any fun w => w.countIn == 0 && !w.fresh

/-- A waiting start with count-in 0 loads its first record (R185). -/
def State.beginList (s : State) : State :=
  match s.csq.waiting with
  | none => s
  | some w =>
    (s.mapCsq fun c => { c with waiting := none, list := w.list }).loadRecord w.start

/-- The count-in begins (R185). -/
def State.beginCountIn (s : State) : State :=
  match s.csq.waiting with
  | none => s
  | some w =>
    let s := s.mapCsq fun c =>
      { c with waiting := none, list := w.list, state := .countIn, barsLeft := w.countIn
               current := some w.start, lookAhead := none }
    (s.applyTempo (s.tbm.cue w.start).tempo).cueReport .ok 0 0 w.start 0 false w.countIn

/-! ### Cue events of a beat boundary -/

/-- A due cue event taken: the mark is cleared, the event acts, and the click generator takes the
boundary last (R180). -/
def State.takeCueDue (f : State → State) (s : State) : State :=
  (f (s.mapCsq fun c => { c with due := none })).clickBoundary

/-- The first record loaded at the end of the count-in (R185). -/
def State.endCountIn (s : State) : State :=
  match s.csq.current with
  | none => s
  | some i => s.loadRecord i

/-- The remaining count reloaded (R188). -/
def State.reloadVamp (s : State) : State :=
  match s.csq.current with
  | none => s
  | some i => s.mapCsq fun c => { c with remaining := (s.tbm.cue i).length }

/-- The held operation cleared (R190). -/
def State.clearHeldOp (s : State) : State := s.mapCsq fun c => { c with heldOp := none }

/-! ### Operations (R189) -/

/-- ADVANCE or SKIP held for the next beat boundary (R189). -/
def State.holdOp (h : HeldOp) (s : State) : State × Code :=
  match s.csq.state with
  | .idle => (s, .skipped)
  | .countIn => (s, .skipped)
  | .running | .vamping | .held =>
    if s.csq.heldOp = some h then (s, .already)
    else (s.mapCsq fun c => { c with heldOp := some h }, .accepted)

/-- A cue operation and its result, by the table of R189. -/
def State.cueOp (op : CueOp) (s : State) : State × Code :=
  match op with
  | .advance => s.holdOp .advance
  | .skip => s.holdOp .skip
  | .vamp =>
    if s.csq.state = .running then (s.mapCsq fun c => { c with state := .vamping }, .ok)
    else (s, .skipped)
  | .hold =>
    if s.csq.state = .running ∨ s.csq.state = .vamping then
      (s.mapCsq fun c => { c with state := .held }, .ok)
    else (s, .skipped)
  | .resume =>
    if s.csq.state = .vamping ∨ s.csq.state = .held then
      (s.mapCsq fun c => { c with state := .running }, .ok)
    else (s, .skipped)
  | .stop =>
    if s.csq.state = .idle ∧ s.csq.waiting.isNone then (s, .skipped) else (s.stopList, .ok)

end Sys2Proof.Machine
end

