-- ==== Sys2Proof/Machine/Gates.lean ====
section
/-! DEFINITION. Gate dispatch (8.2) and the gate kinds that act on the return stack (R163, R168). -/

namespace Sys2Proof.Machine

/-- What a dispatch carries (8.2): its source, the footswitch and whether it is down, the event
number of the GATE report, and the tag of the command that made it. -/
structure Dispatch where
  source : Source
  switch : Option SwitchNo
  down   : Bool
  event  : Nat
  tag    : Byte

/-- The foot is up: the dispatch was made by a footswitch at its release (R153). -/
def Dispatch.footUp (d : Dispatch) : Bool := d.switch.isSome && !d.down

/-- The footswitch that owns an entry pushed by the dispatch (R162). -/
def Dispatch.owner (d : Dispatch) : Option SwitchNo := if d.down then d.switch else none

/-- Whether a condition holds (R158). -/
def State.conditionHolds (c : GateCondition) (s : State) : Bool :=
  match c with
  | .always => true
  | .cueRunning => s.csq.state != .idle
  | .cueIdle => s.csq.state == .idle
  | .tunerEngaged => s.engaged
  | .stackEmpty => s.swu.stack.isEmpty
  | .stackNonempty => !s.swu.stack.isEmpty

/-- The request a SCENE gate makes (R161). -/
def gateRequest (g : GateNo) (gate : Gate) (q : Quantize) (d : Dispatch) : Request :=
  { target := sceneOf gate.argA, source := d.source, quantize := q, override := none
    gate := some g, owner := d.switch, tag := d.tag }

/-- A SCENE gate (R161). -/
def State.sceneGate (g : GateNo) (gate : Gate) (d : Dispatch) (s : State) : State × Code :=
  s.baseSwitch (gateRequest g gate gate.quantize d)

/-- A MOMENTARY gate that pushes (R163). -/
def State.momentaryPush (g : GateNo) (gate : Gate) (d : Dispatch) (s : State) : State × Code :=
  if Config.stackDepth ≤ s.swu.stack.length then (s, .stackFull)
  else
    let r := (s.push .momentary d.owner).switchRequest (gateRequest g gate .none d)
    if r.2 = .notPresent ∨ r.2 = .busy then (r.1.dropTop, r.2) else r

/-- A MOMENTARY gate: with the foot up it acts as a SCENE gate (R153, R163). -/
def State.momentaryGate (g : GateNo) (gate : Gate) (d : Dispatch) (s : State) : State × Code :=
  if d.footUp then s.sceneGate g gate d else s.momentaryPush g gate d

/-- The pop a gate makes (R164). -/
def State.gatePop (g : GateNo) (d : Dispatch) (s : State) : State × Code :=
  s.pop { source := d.source, gate := some g, owner := none, tag := d.tag }

/-- A TUNER gate (R168). -/
def State.tunerGate (g : GateNo) (d : Dispatch) (s : State) : State × Code :=
  if s.engaged then
    if s.swu.stack.getLast?.any fun e => e.reason == .tuner then s.gatePop g d
    else (s.dropLower fun e => e.reason == .tuner, .ok)
  else if Config.stackDepth ≤ s.swu.stack.length then (s, .stackFull)
  else (s.push .tuner d.owner, .ok)

/-- A CUE_START gate (R184). LOAD has checked the range of its arguments (R50, log 21). -/
def State.cueStartGate (gate : Gate) (d : Dispatch) (s : State) : State × Code :=
  if h : gate.argA < 16 then s.cueStart ⟨gate.argA, h⟩ gate.argB d.tag else (s, .range)

/-- A CUE_OP gate (R189). LOAD has checked the range of its argument (R50, log 21). -/
def State.cueOpGate (gate : Gate) (s : State) : State × Code :=
  match cueOpOf gate.argA with
  | some op => s.cueOp op
  | none => (s, .range)

/-- The action of a gate by its kind, and its result (R161, R163, R164, R168). -/
def State.gateAction (g : GateNo) (gate : Gate) (d : Dispatch) (s : State) : State × Code :=
  match gate.kind with
  | .scene => s.sceneGate g gate d
  | .momentary => s.momentaryGate g gate d
  | .pop => s.gatePop g d
  | .tuner => s.tunerGate g d
  | .toggleStage => s.toggleStage gate.argA
  | .cueStart => s.cueStartGate gate d
  | .cueOp => s.cueOpGate gate
  | .tap => s.tapEvent d.source d.tag

/-- Steps 1 to 3 of R157: the refusal, if there is one. -/
def State.gateRefusal (d : Dispatch) (g : GateNo) (s : State) : Option Code :=
  if s.tbm.gateLimit ≤ g.val then some .limit
  else if !(s.tbm.gate g).present then some .notPresent
  else if d.source.level < (s.tbm.gate g).level then some .level
  else none

/-- The dispatch of an else gate through steps 1 to 4 of R157; its own else gate is not read, so a
condition that fails here gives SKIPPED (log 23). -/
def State.dispatchElse (d : Dispatch) (e : GateNo) (s : State) : State × Code :=
  match s.gateRefusal d e with
  | some c => (s, c)
  | none =>
    if s.conditionHolds (s.tbm.gate e).condition then s.gateAction e (s.tbm.gate e) d
    else (s, .skipped)

/-- The else gate a dispatch of `g` reaches, if it reaches one (R157 step 5). -/
def State.elseReached (d : Dispatch) (g : GateNo) (s : State) : Option GateNo :=
  match s.gateRefusal d g with
  | some _ => none
  | none => if s.conditionHolds (s.tbm.gate g).condition then none else (s.tbm.gate g).elseGate

/-- A dispatch of gate `g` and its result (R157). -/
def State.dispatch (d : Dispatch) (g : GateNo) (s : State) : State × Code :=
  match s.gateRefusal d g with
  | some c => (s, c)
  | none =>
    if s.conditionHolds (s.tbm.gate g).condition then s.gateAction g (s.tbm.gate g) d
    else
      match (s.tbm.gate g).elseGate with
      | some e => s.dispatchElse d e
      | none => (s, .skipped)

/-- Whether a FOOT dispatch with this result queues a GATE report (R159). -/
def reportsGate (reporting : Bool) (c : Code) : Bool :=
  match c with
  | .ok => false
  | .accepted => false
  | .already => false
  | .skipped => reporting
  | _ => true

/-- The GATE report of R159. -/
def State.gateReport (d : Dispatch) (g : GateNo) (reached : Option GateNo) (c : Code)
    (s : State) : State :=
  s.raise .gate 0 c
    [payload (g.val <<< 16 + byteOf reached <<< 8 + d.source.value <<< 6 + d.event <<< 4
      + (d.switch.elim 15 Fin.val))]

/-- A dispatch made by a footswitch event, with its GATE report behind the reports of the action
(R159). -/
def State.footDispatch (f : SwitchNo) (down : Bool) (event : Nat) (g : GateNo) (s : State) : State :=
  let d : Dispatch := { source := .foot, switch := some f, down := down, event := event, tag := 0 }
  let reached := s.elseReached d g
  let r := s.dispatch d g
  if reportsGate s.pmn.reporting r.2 then r.1.gateReport d g reached r.2 else r.1

/-- The dispatch of a FOOTMAP gate, if the entry holds one. -/
def State.footGate (f : SwitchNo) (down : Bool) (event : Nat) (g : Option GateNo)
    (s : State) : State :=
  match g with
  | some g => s.footDispatch f down event g
  | none => s

end Sys2Proof.Machine
end

