-- ==== Sys2Proof/Machine/Pedals.lean ====
section
/-! DEFINITION. The pedal monitor (8.1): debounce, press, hold and release events, expression
changes. -/

namespace Sys2Proof.Machine

/-! ### Reports (R155) -/

/-- The PEDAL report of R155, if pedal reporting is on. -/
def State.pedalReport (event number : Nat) (deferred : Bool) (value : Nat) (s : State) : State :=
  if s.pmn.reporting then
    s.raise .pedal 0 .ok
      [payload (event <<< 22 + number <<< 18 + (if deferred then 1 <<< 17 else 0) + value)]
  else s

/-! ### Debounce and change detection (R148, R149, R154) -/

/-- The bit of a footswitch has confirmed against the reference in this frame (R149). -/
def Footswitch.confirms (D : Nat) (down : Bool) (f : Footswitch) : Bool :=
  down != f.reference && D ≤ f.debounce + 1

/-- One frame of a footswitch (R149). -/
def Footswitch.frame (D : Nat) (down : Bool) (f : Footswitch) : Footswitch :=
  if down = f.reference then { f with debounce := 0 }
  else if f.debounce + 1 < D then { f with debounce := f.debounce + 1 }
  else { f with reference := down, debounce := 0 }

/-- The events the footswitch bits of a word confirm, in number order (R148). -/
def Pmn.switchEvents (w : Option Word32) (p : Pmn) : List PedalEvent :=
  twelve.filterMap fun f =>
    if (p.switches.get f).confirms (p.debounce * 16) (pedalDown w f) then
      some (if pedalDown w f then .press f else .release f)
    else none

/-- A reading that is accepted as a change (R154). -/
def accepted (last v : Nat) : Bool := last + 2 ≤ v || v + 2 ≤ last

/-- The expression changes a word brings, pedal 1 before pedal 2 (R148, R154). -/
def Pmn.expressionEvents (w : Option Word32) (p : Pmn) : List PedalEvent :=
  match pedalReading w with
  | none => []
  | some (v1, v2) =>
    (if accepted p.last1 v1 then [.expression false v1] else [])
      ++ (if accepted p.last2 v2 then [.expression true v2] else [])

/-- The pedal word of a frame (R148): the footswitches are debounced, and the events that the word
confirms wait in the order in which PMN takes them. -/
def Pmn.word (w : Option Word32) (p : Pmn) : Pmn :=
  { p with
    switches := twelve.foldl (fun v f =>
      upd v f ((p.switches.get f).frame (p.debounce * 16) (pedalDown w f))) p.switches
    events := p.events ++ p.switchEvents w ++ p.expressionEvents w }

/-- An accepted expression change carried out (R154): the last accepted value, the PEDAL report, the
maps (R88). -/
def State.expressionChange (second : Bool) (v : Nat) (s : State) : State :=
  let s := s.mapPmn fun p => if second then { p with last2 := v } else { p with last1 := v }
  let n := if second then 2 else 1
  (s.pedalReport 3 n false v).applyExpMaps n v

/-- The events from a list that come before the next footswitch event are carried out. -/
def takeExpressions : List PedalEvent → State → State
  | .expression second v :: rest, s =>
    takeExpressions rest
      ((s.mapPmn fun p => { p with events := rest }).expressionChange second v)
  | .press _ :: _, s => s
  | .release _ :: _, s => s
  | [], s => s

/-- Expression changes have no step of their own: they are carried out as soon as no footswitch event
stands before them and no cue event that such an event has called for is still to come (R148, log 17). -/
def State.drainExpressions (s : State) : State :=
  if s.csq.due.isSome then s else takeExpressions s.pmn.events s

/-- A due cue event taken, and the expression changes that waited behind it (R148). -/
def State.finishCueDue (f : State → State) (s : State) : State := (s.takeCueDue f).drainExpressions

/-! ### Press, hold, release (R151–R153) -/

/-- The hold time of a FOOTMAP entry in blocks (R51). -/
def holdBlocks (code : Nat) : Nat := code * 150

/-- A press event (R151). -/
def State.pressEvent (f : SwitchNo) (s : State) : State :=
  let deferred := (s.tbm.holdGate f).isSome
  let s := (s.setSwitch f fun x => { x with state := .pressed }).pedalReport 0 f.val deferred 0
  if deferred then
    s.setSwitch f fun x =>
      { x with deferred := true, hold := holdBlocks (s.tbm.holdCode f), fresh := true }
  else s.footGate f true 0 (s.tbm.pressGate f)

/-- A hold event (R152). -/
def State.holdEvent (f : SwitchNo) (s : State) : State :=
  let s := (s.setSwitch f fun x => { x with deferred := false, state := .held }).pedalReport
    1 f.val false 0
  s.footGate f true 1 (s.tbm.holdGate f)

/-- A release event (R153). -/
def State.releaseEvent (f : SwitchNo) (s : State) : State :=
  let was := s.pmn.switches.get f
  let owned := s.owned f
  let s := (s.setSwitch f fun x =>
    { x with state := .released, deferred := false, hold := 0 }).pedalReport 2 f.val false 0
  let s := if owned then s.ownerRelease f else s
  if was.state = .pressed ∧ was.deferred then s.footGate f false 0 (s.tbm.pressGate f)
  else if owned ∨ was.state = .held then s
  else s.footGate f false 2 (s.tbm.releaseGate f)

/-- The hold timer of a footswitch has run out (R152). -/
def Footswitch.holdDue (f : Footswitch) : Bool :=
  f.state == .pressed && f.deferred && f.hold == 0

/-- The footswitch whose hold event is taken next: the lowest-numbered one due (R152). -/
def Pmn.nextHold (p : Pmn) : Option SwitchNo := twelve.find? fun f => (p.switches.get f).holdDue

/-- One block of a hold timer: every boundary that follows a frame processed after the press counts, the first
one too (R152, log 43). -/
def Footswitch.countHold (f : Footswitch) : Footswitch :=
  if f.state = .pressed ∧ f.deferred ∧ ¬ f.fresh then { f with hold := f.hold - 1 } else f

end Sys2Proof.Machine
end

