-- ==== Sys2Proof/Machine/Writes.lean ====
section
/-! DEFINITION. Answers to messages, and the table writes: protection (R63), invalidation (R64), and
the words of entries and views (R56, R57). -/

namespace Sys2Proof.Machine

/-! ### Answers (R34) -/

/-- The answer to a message: an ACK or a DATA. `ends` marks the ACK of an accepted SLOTMAP. -/
structure Reply where
  kind : RecordKind
  code : Code
  body : List Word24
  ends : Bool

def ack (c : Code) : Reply := { kind := .ack, code := c, body := [], ends := false }

def data (ws : List Word24) : Reply := { kind := .data, code := .ok, body := ws, ends := false }

/-- The record of an answer to a message with this tag (R34). -/
def Reply.record (r : Reply) (tag : Byte) : Record :=
  { kind := r.kind, tag := tag, code := r.code, body := r.body, ends := r.ends }

/-- The result of an action as the ACK of its command. -/
def answer (r : State × Code) : State × Reply := (r.1, ack r.2)

/-! ### Protection (R63) -/

/-- The prepared image of a slot references entry `idx` of a SHAPE or IR kind. -/
def StgSlot.imageReferences (t : StgSlot) (k : TableKind) (idx : Nat) : Bool :=
  t.image.any fun im => im.record.references k idx

/-- The slot is LIVE or FADING. -/
def StgSlot.onAir (t : StgSlot) : Bool := t.state == .live || t.state == .fading

/-- An option number is the number `idx`. -/
def isNumber {n : Nat} (o : Option (Fin n)) (idx : Nat) : Bool := o.any fun i => i.val == idx

/-- The entry is in present use (R63). -/
def State.inUse (k : TableKind) (idx : Nat) (s : State) : Bool :=
  match k with
  | .scene =>
    isNumber s.liveScene idx || isNumber s.fadingScene idx
      || s.swu.stack.any fun e => isNumber e.saved idx
  | .shape | .ir => vany (fun t => t.onAir && t.imageReferences k idx) s.stg.slots
  | .cue =>
    s.csq.state != .idle && (s.csq.current == some idx || s.csq.lookAhead == some idx)
  | .gate | .footmap | .expmap | .cuedir | .slotView | .lineView | .stackView => false

/-! ### Invalidation (R64) -/

/-- A write to the entry makes the slot's staged copy stale (R64). -/
def Tbm.makesStale (tb : Tbm) (k : TableKind) (idx : Nat) (t : StgSlot) : Bool :=
  match t.state with
  | .queued | .preparing =>
    match k with
    | .scene => isNumber t.scene idx
    | .shape | .ir => t.scene.any fun n => (tb.sceneRecord n).references k idx
    | .gate | .footmap | .expmap | .cue | .cuedir | .slotView | .lineView | .stackView => false
  | .ready =>
    match k with
    | .scene => isNumber t.scene idx
    | .shape | .ir => t.imageReferences k idx
    | .gate | .footmap | .expmap | .cue | .cuedir | .slotView | .lineView | .stackView => false
  | .empty | .live | .fading => false

/-- The slot is QUEUED or PREPARING: its ARM report is still to come (R131). -/
def StgSlot.unreported (t : StgSlot) : Bool := t.state == .queued || t.state == .preparing

/-- A staged copy withdrawn, with its reports (R64). The SWITCH report of the pending switch stands right
behind the place of its own slot's ARM report (log 37). -/
def State.withdraw (i : SlotNo) (s : State) : State :=
  let t := s.stg.slots.get i
  let waits := s.pendingOn t.scene
  let s := s.emptySlot i
  let s := if t.unreported then s.armReport i t .invalidated else s
  if waits then s.refusePending .invalidated else s

/-- Every staged copy that a write to the entry would make stale withdrawn, in slot-number order
(R64). -/
def State.invalidate (k : TableKind) (idx : Nat) (s : State) : State :=
  forEach four (fun i s =>
    if s.tbm.makesStale k idx (s.stg.slots.get i) then s.withdraw i else s) s

/-! ### LOAD, ERASE and COMMIT (R58, R60, R61) -/

/-- The kind carries a VALID flag (R46). -/
def TableKind.hasValid : TableKind → Bool
  | .scene | .shape | .ir => true
  | .gate | .footmap | .expmap | .cue | .cuedir | .slotView | .lineView | .stackView => false

/-- The entry index of a table command, BODY word 1 (3.7). -/
def entryIndex (w : Word24) : Nat := bits 23 12 w

/-- The word offset of a table command, BODY word 1 (3.7). -/
def entryOffset (w : Word24) : Nat := bits 11 0 w

/-- The table kind of a LOAD or ERASE, which take no view (R56, R58 check 2). -/
def writableKind (a0 : Nat) : Option TableKind :=
  (kindOf a0).bind fun k => if k.isView then none else some k

/-- Words written into an entry by LOAD (R58): the VALID flag of a kind that has one is cleared. -/
def Tbm.loadWords (tb : Tbm) (k : TableKind) (idx off : Nat) (ws : List Word24) : Tbm :=
  (tb.writeEntry k idx off ws).setValid k idx false

/-- One bit of a word cleared. -/
def clearBit (i : Nat) (w : Word24) : Word24 := w &&& ~~~ (BitVec.twoPow 24 i)

/-- The effect of ERASE by kind (R60). Bits that R60 does not name are kept (log 13). -/
def Tbm.erase (tb : Tbm) (k : TableKind) (idx : Nat) : Tbm :=
  match k with
  | .scene | .shape | .ir => tb.setValid k idx false
  | .gate | .expmap | .cuedir => tb.writeEntry k idx 0 [clearBit 23 (tb.word k idx 0)]
  | .footmap =>
    tb.writeEntry k idx 0 [clearBit 23 (clearBit 15 (clearBit 7 (tb.word k idx 0)))]
  | .cue => tb.writeEntry k idx 0 [payload (255 <<< 16), 0, 0]
  | .slotView | .lineView | .stackView => tb

/-- The entry as it would stand after a write at an offset (R58 check 5). -/
def Tbm.afterWrite (tb : Tbm) (k : TableKind) (idx off : Nat) (ws : List Word24) (i : Nat) : Word24 :=
  if off ≤ i ∧ i < off + ws.length then ws.getD (i - off) 0 else tb.word k idx i

/-! ### Views (R56, R57) -/

def SlotState.value : SlotState → Nat
  | .empty => 0 | .queued => 1 | .preparing => 2 | .ready => 3 | .live => 4 | .fading => 5

/-- The word of the SLOT view (R57). -/
def StgSlot.viewWord (t : StgSlot) : Word24 :=
  payload (t.state.value <<< 21 + byteOf t.scene <<< 8 + (if t.pinned then 4 else 0)
    + (if t.cuePin then 2 else 0) + (if t.demanded then 1 else 0))

def LineState.value : LineState → Nat
  | .free => 0 | .live => 1 | .tail => 2

/-- The twelve words of the LINE view (R57). -/
def Line.viewWords (l : Line) : List Word24 :=
  [payload (l.state.value <<< 22 + byteOf l.owner1 <<< 8 + byteOf l.owner2),
   payload l.current, payload l.target, payload (l.held.getD 0), payload l.position,
   payload l.feedback, payload l.wet, payload l.pan, payload (if l.tail then 1 else 0),
   payload l.mem.length, payload l.quiet, payload l.age]

def Reason.value : Reason → Nat
  | .momentary => 1 | .tuner => 2

/-- The word of an entry of the STACK view (R57 *2). -/
def stackWord (e : Option StackEntry) : Word24 :=
  match e with
  | some e => payload (byteOf e.saved <<< 16 + e.reason.value <<< 8 + byteOf e.owner)
  | none => payload (255 <<< 16 + 255)

/-- The five words of the STACK view (R57). -/
def stackWords (es : List StackEntry) : List Word24 :=
  [payload es.length, stackWord es[0]?, stackWord es[1]?, stackWord es[2]?, stackWord es[3]?]

/-- The words a READ returns (R56, R59). -/
def State.readWords (k : TableKind) (idx off n : Nat) (s : State) : List Word24 :=
  match k with
  | .slotView =>
    if h : idx < 4 then ([(s.stg.slots.get ⟨idx, h⟩).viewWord].drop off).take n else []
  | .lineView =>
    if h : idx < 4 then ((s.dlu.lines.get ⟨idx, h⟩).viewWords.drop off).take n else []
  | .stackView => ((stackWords s.swu.stack).drop off).take n
  | .scene | .shape | .ir | .gate | .footmap | .expmap | .cue | .cuedir =>
    s.tbm.mem.readAll (entryAddr k idx off) n

end Sys2Proof.Machine
end

