-- ==== Sys2Proof/Machine/Channel.lean ====
section
/-! DEFINITION. What the executor does with damaged and unknown messages, and with PING, STATUS,
METERS, SLOTMAP and RESTART (1.4-1, 2.3, 2.6, 2.7, 4.5). -/

namespace Sys2Proof.Machine

/-- R34 check 1. -/
def damagedEffect (_m : Message) (s : State) : State × Reply := (s, ack .overrun)

/-- R34 check 2. -/
def unknownEffect (_m : Message) (s : State) : State × Reply := (s, ack .badCommand)

/-- PING (R42). -/
def pingEffect (m : Message) (s : State) : State × Reply :=
  match m.body with
  | [] => (s, data [payload (m.a0 <<< 16 + s.sli.counter.toNat % 65536)])
  | _ => (s, ack .badLength)

/-! ### STATUS (R43) -/

/-- The DATA body of STATUS (R43 step 2). -/
def State.statusBody (s : State) : List Word24 :=
  let n := s.cch.counters
  [payload ((if s.sce.clip then 1 <<< 23 else 0) + (if s.cch.dropped then 1 <<< 22 else 0)
      + s.cch.fill <<< 8),
   payload n.executed, payload n.fragments, payload n.timeouts, payload n.wordsDropped,
   payload n.recordsDropped, payload s.cch.replyWords, payload n.tuneDropped]

/-- CLIP and DROPPED cleared (R43 step 3). -/
def State.clearSticky (s : State) : State :=
  (s.mapSce fun e => { e with clip := false }).mapCch fun c => { c with dropped := false }

/-- STATUS that reads and clears the flags; an A0 above 1 gives RANGE (R43, log 10). -/
def statusEffect (m : Message) (s : State) : State × Reply :=
  match m.body with
  | [] => if m.a0 = 0 then (s.clearSticky, data s.statusBody) else (s, ack .range)
  | _ => (s, ack .badLength)

/-- STATUS with A0 = 1 (R43). -/
def statusZeroEffect (m : Message) (s : State) : State × Reply :=
  match m.body with
  | [] =>
    (s.clearSticky.mapCch fun c => { c with counters := Counters.zero }, data s.statusBody)
  | _ => (s, ack .badLength)

/-! ### METERS (R91) -/

/-- The clip counter of LIVE stage `k` of a list, 0 beyond the stage count. -/
def clipWord (stages : List Stage) (k : Nat) : Word24 := payload (stages[k]?.elim 0 Stage.clips)

/-- The DATA body of METERS (R91). -/
def State.metersBody (s : State) : List Word24 :=
  let stages := s.sce.live.elim [] Copy.stages
  [payload (byteOf s.liveScene <<< 16 + stages.length <<< 8),
   payload s.sce.peakL, payload s.sce.peakR, payload s.sce.mixClips]
    ++ [0, 1, 2, 3, 4, 5, 6, 7, 8, 9].map (clipWord stages)

/-- The meters that METERS has read set to 0 (R91). -/
def Sce.clearMeters (e : Sce) : Sce :=
  { e with
    peakL := 0, peakR := 0, mixClips := 0
    live := e.live.map fun c => { c with stages := c.stages.map fun st => { st with clips := 0 } } }

def metersEffect (m : Message) (s : State) : State × Reply :=
  match m.body with
  | [] => (s.mapSce Sce.clearMeters, data s.metersBody)
  | _ => (s, ack .badLength)

/-! ### SLOTMAP (R13) -/

/-- Checks 2 to 4 of R13. -/
def slotMapAccepted (w1 w2 w3 w4 w5 : Word24) : Bool :=
  let m := slotMapOf w1 w2 w3 w4 w5
  (slotMapFields w1 w2 w3 w4 w5).all roleInRange && m.control.isSome && m.reply.isSome
    && noSlotTwice m.inbound && noSlotTwice m.outboundSlots

def slotmapEffect (m : Message) (s : State) : State × Reply :=
  match m.body with
  | [w1, w2, w3, w4, w5] =>
    if slotMapAccepted w1 w2 w3 w4 w5 then
      (s.mapSli fun l => { l with waiting := some (slotMapOf w1 w2 w3 w4 w5), ackSent := false },
        { kind := .ack, code := .ok, body := [], ends := true })
    else (s, ack .range)
  | _ => (s, ack .badLength)

/-! ### RESTART (R44 and the reset table of each chapter) -/

/-- The engine (R93). -/
def Sce.restart (all : Bool) (e : Sce) : Sce :=
  { live := none, fading := none, mute := Config.unity, fade := e.fade, peakL := 0, peakR := 0
    mixClips := 0, clip := if all then false else e.clip }

/-- The delay lines (R118, R122). -/
def Dlu.restart (all : Bool) (d : Dlu) : Dlu :=
  if all then Dlu.default else { d with lines := Vector.replicate 4 Line.free }

/-- Deferred presses dropped and hold timers cancelled (R156). -/
def Footswitch.restart (f : Footswitch) : Footswitch := { f with deferred := false, hold := 0 }

/-- The pedal monitor (R156). -/
def Pmn.restart (all : Bool) (p : Pmn) : Pmn :=
  { p with switches := vmap Footswitch.restart p.switches
           debounce := if all then 15 else p.debounce
           reporting := if all then false else p.reporting }

/-- The tempo clock (R182). -/
def Tck.restart (all : Bool) (t : Tck) : Tck :=
  if all then { Tck.reset with tapCount := t.tapCount }
  else { t with tapOpen := false, tapHistory := [], burst := none, burstPos := Config.burstLength }

/-- The cue sequencer (R193); list and tag are not reset (log 22). -/
def Csq.restart (c : Csq) : Csq := { Csq.reset with list := c.list, tag := c.tag }

/-- The tuner at RESTART ENGINE (R201, R202): `changed` says that the live scene has changed under
source setting FOLLOW. -/
def Tun.restartEngine (changed : Bool) (t : Tun) : Tun :=
  match t.mode with
  | .off => { t.restartWindow with pacing := 0, pacingDue := false }
  | .background => if changed then t.restartWindow else t

/-- The blocks' actions at RESTART ENGINE (R44 step 2). -/
def State.restartEngine (s : State) : State :=
  let changed := s.liveScene.isSome && s.tun.source == .follow
  { s with
    stg := Stg.reset, swu := Swu.reset, sce := s.sce.restart false, dlu := s.dlu.restart false
    pmn := s.pmn.restart false, tck := s.tck.restart false, csq := s.csq.restart
    tun := s.tun.restartEngine changed }

/-- The blocks' actions at RESTART ALL (R44 step 2). -/
def State.restartAll (s : State) : State :=
  { s with
    tbm := Tbm.blank, stg := Stg.reset, swu := Swu.reset, sce := s.sce.restart true
    dlu := s.dlu.restart true, pmn := s.pmn.restart true, tck := s.tck.restart true
    csq := s.csq.restart, tun := Tun.reset }

/-- RESTART with A0 = 0; an A0 above 1 gives RANGE (R44, log 10). -/
def restartEngineEffect (m : Message) (s : State) : State × Reply :=
  match m.body with
  | [] =>
    if m.a0 = 0 then ((s.mapCch Cch.emptyReplies).restartEngine, ack .ok) else (s, ack .range)
  | _ => (s, ack .badLength)

/-- RESTART with A0 = 1 (R44). -/
def restartAllEffect (m : Message) (s : State) : State × Reply :=
  match m.body with
  | [] =>
    ((s.mapCch Cch.emptyReplies).restartAll.mapCch fun c =>
      { c with counters := Counters.zero, dropped := false }, ack .ok)
  | _ => (s, ack .badLength)

end Sys2Proof.Machine
end

