-- ==== Sys2Proof/Machine/TableCommands.lean ====
section
/-! DEFINITION. LOAD, READ, ERASE, COMMIT, GATE_LIMIT and STORE (3.7–3.9, 4.4-2). -/

namespace Sys2Proof.Machine

/-! ### LOAD (R58) -/

/-- Checks 3 to 6 of R58 and the LOAD that passes them. -/
def State.load (k : TableKind) (idx off : Nat) (ws : List Word24) (s : State) : State × Reply :=
  if k.entries ≤ idx ∨ k.words < off + ws.length
      ∨ entryInRange k (s.tbm.afterWrite k idx off ws) = false then (s, ack .range)
  else if s.inUse k idx then (s, ack .inUse)
  else ((s.invalidate k idx).mapTbm fun tb => tb.loadWords k idx off ws, ack .ok)

def loadEffect (m : Message) (s : State) : State × Reply :=
  match m.body with
  | w :: d :: ds =>
    if 60 < ds.length + 1 then (s, ack .badLength)
    else
      match writableKind m.a0 with
      | none => (s, ack .range)
      | some k => s.load k (entryIndex w) (entryOffset w) (d :: ds)
  | _ => (s, ack .badLength)

/-! ### READ (R59) -/

/-- The count of a READ, BODY word 2. -/
def readCount (w : Word24) : Nat := bits 5 0 w

def readEffect (m : Message) (s : State) : State × Reply :=
  match m.body with
  | [w, n] =>
    match kindOf m.a0 with
    | none => (s, ack .range)
    | some k =>
      if k.entries ≤ entryIndex w ∨ readCount n = 0 ∨ 60 < readCount n
          ∨ k.words < entryOffset w + readCount n then (s, ack .range)
      else (s, data (s.readWords k (entryIndex w) (entryOffset w) (readCount n)))
  | _ => (s, ack .badLength)

/-! ### ERASE (R60) -/

def eraseEffect (m : Message) (s : State) : State × Reply :=
  match m.body with
  | [w] =>
    match writableKind m.a0 with
    | none => (s, ack .range)
    | some k =>
      if k.entries ≤ entryIndex w then (s, ack .range)
      else if s.inUse k (entryIndex w) then (s, ack .inUse)
      else
        ((s.invalidate k (entryIndex w)).mapTbm fun tb => tb.erase k (entryIndex w), ack .ok)
  | _ => (s, ack .badLength)

/-! ### COMMIT (R61) -/

/-- The kind of a COMMIT: SCENE, SHAPE or IR. -/
def commitKind (a0 : Nat) : Option TableKind :=
  (kindOf a0).bind fun k => if k.hasValid then some k else none

/-- The code of a COMMIT that names an entry (R61). -/
def Tbm.commitCode (tb : Tbm) (k : TableKind) (idx : Nat) : Code :=
  if tb.valid k idx then .ok
  else
    match k with
    | .scene => validateScene (tb.word .scene idx)
    | .shape | .ir | .gate | .footmap | .expmap | .cue | .cuedir | .slotView | .lineView
    | .stackView => .ok

def commitEffect (m : Message) (s : State) : State × Reply :=
  match m.body with
  | [w] =>
    match commitKind m.a0 with
    | none => (s, ack .range)
    | some k =>
      if k.entries ≤ entryIndex w then (s, ack .range)
      else
        let c := s.tbm.commitCode k (entryIndex w)
        if c = .ok then (s.mapTbm fun tb => tb.setValid k (entryIndex w) true, ack .ok)
        else (s, ack c)
  | _ => (s, ack .badLength)

/-! ### GATE_LIMIT (R62) -/

def gateLimitEffect (m : Message) (s : State) : State × Reply :=
  match m.body with
  | [] =>
    if 128 < m.a0 then (s, ack .range)
    else (s.mapTbm fun tb => { tb with gateLimit := m.a0 }, ack .ok)
  | _ => (s, ack .badLength)

/-! ### STORE (R90) -/

/-- The 274 words of a SCENE entry that holds a record: the words beyond it are 0 (R90). -/
def SceneRecord.entryWords (r : SceneRecord) : List Word24 :=
  (r.words ++ List.replicate 274 0).take 274

/-- A record written into a SCENE entry and made VALID (R90). -/
def Tbm.storeScene (tb : Tbm) (n : Nat) (r : SceneRecord) : Tbm :=
  (tb.writeEntry .scene n 0 r.entryWords).setValid .scene n true

/-- The LIVE slot's prepared image becomes the record just written (R90). -/
def State.storeImage (r : SceneRecord) (s : State) : State :=
  match s.stg.liveSlot with
  | none => s
  | some i => s.setSlot i fun t => { t with image := t.image.map fun im => { im with record := r } }

/-- STORE of a copy into entry `n` (R90). -/
def State.store (n : Nat) (c : Copy) (s : State) : State × Reply :=
  if isNumber s.liveScene n then
    (((s.mapTbm fun tb => tb.storeScene n c.record).storeImage c.record).mapSce
      (Sce.mapCopy .live fun c => { c with edited := false }), ack .ok)
  else if s.inUse .scene n then (s, ack .inUse)
  else ((s.invalidate .scene n).mapTbm fun tb => tb.storeScene n c.record, ack .ok)

def storeEffect (m : Message) (s : State) : State × Reply :=
  match m.body with
  | [] =>
    if 127 < m.a0 then (s, ack .range)
    else
      match s.sce.live with
      | none => (s, ack .notPresent)
      | some c => s.store m.a0 c
  | _ => (s, ack .badLength)

end Sys2Proof.Machine
end

