-- ==== Sys2Proof/Machine/SceneCommands.lean ====
section
/-! DEFINITION. ARM, DISARM, SWITCH_SCENE, SWITCH_GATE, RETURN, SET_PARAM, TOGGLE_STAGE and TAIL_CFG
(chapters 4, 6, 7 and 8). -/

namespace Sys2Proof.Machine

/-! ### ARM (R126) -/

/-- The arm request of ARM: A0 bits 6–0 are the scene, bit 7 asks for a pin (R126). -/
def armOf (a0 : Nat) (tag : Byte) : ArmRequest :=
  { scene := ⟨a0 % 128, Nat.mod_lt _ (by decide)⟩, pin := a0 / 128 % 2 == 1, cuePin := false
    demand := false, origin := .command, tag := tag }

def armEffect (m : Message) (s : State) : State × Reply :=
  match m.body with
  | [] => answer (s.armRequest (armOf m.a0 m.tag))
  | _ => (s, ack .badLength)

/-! ### DISARM (R132) -/

/-- What a DISARM names: a slot, a scene, or a field out of range (R132 check 2). -/
inductive DisarmTarget where
  | scene (n : SceneNo)
  | slot (i : SlotNo)
  | outOfRange
  deriving DecidableEq, Repr

def disarmTarget (w : Word24) : DisarmTarget :=
  match bits 23 16 w with
  | 0 => if h : bits 7 0 w < 128 then .scene ⟨bits 7 0 w, h⟩ else .outOfRange
  | 1 => if h : bits 7 0 w < 4 then .slot ⟨bits 7 0 w, h⟩ else .outOfRange
  | _ => .outOfRange

/-- A DISARM of slot `i` (R132): checks 3 and 4, and the action. Where it aborts a preparation, the loader takes
its next slot at a later block boundary. -/
def State.disarm (i : SlotNo) (s : State) : State × Reply :=
  let t := s.stg.slots.get i
  if t.state = .empty then (s, ack .notPresent)
  else if t.onAir then (s, ack .inUse)
  else
    let s := (s.emptySlot i).mapStg fun g =>
      { g with loaderWaits := g.loaderWaits || t.state == .preparing }
    let s := if t.unreported then s.armReport i t .invalidated else s
    (if t.demanded then s.refusePending .invalidated else s, ack .ok)

def disarmEffect (m : Message) (s : State) : State × Reply :=
  match m.body with
  | [w] =>
    match disarmTarget w with
    | .outOfRange => (s, ack .range)
    | .slot i => s.disarm i
    | .scene n =>
      match s.stg.holding n with
      | none => (s, ack .notPresent)
      | some i => s.disarm i
  | _ => (s, ack .badLength)

/-! ### SWITCH_SCENE (R134) -/

/-- The override of a SWITCH_SCENE: present if bit 8 is set, the code in bits 2–0. -/
def overrideOf (w : Word24) : Option (Fin 8) :=
  if bit 8 w then some ⟨bits 2 0 w, by unfold bits; exact Nat.mod_lt _ (by decide)⟩ else none

/-- The base switch of SWITCH_SCENE (R134). -/
def switchSceneRequest (m : Message) (q : Quantize) (o : Option (Fin 8)) : Request :=
  { target := sceneOf m.a0, source := .controller, quantize := q, override := o, gate := none
    owner := none, tag := m.tag }

/-- A0 names a scene or NONE (R134 check 2). -/
def targetInRange (a0 : Nat) : Bool := a0 < 128 || a0 == 255

def switchSceneEffect (m : Message) (s : State) : State × Reply :=
  match m.body with
  | [] =>
    if targetInRange m.a0 then answer (s.baseSwitch (switchSceneRequest m .none none))
    else (s, ack .range)
  | [w] =>
    if targetInRange m.a0 && bits 17 16 w ≠ 3 then
      answer (s.baseSwitch (switchSceneRequest m (quantizeOf (bits 17 16 w)) (overrideOf w)))
    else (s, ack .range)
  | _ => (s, ack .badLength)

/-! ### SWITCH_GATE and RETURN (R160, R165) -/

/-- The dispatch of SWITCH_GATE: source CONTROLLER, no footswitch, event none (R160). -/
def controllerDispatch (tag : Byte) : Dispatch :=
  { source := .controller, switch := none, down := false, event := 3, tag := tag }

def switchGateEffect (m : Message) (s : State) : State × Reply :=
  match m.body with
  | [] =>
    match sceneOf m.a0 with
    | none => (s, ack .limit)
    | some g => answer (s.dispatch (controllerDispatch m.tag) g)
  | _ => (s, ack .badLength)

def returnEffect (m : Message) (s : State) : State × Reply :=
  match m.body with
  | [] => answer (s.pop { source := .controller, gate := none, owner := none, tag := m.tag })
  | _ => (s, ack .badLength)

/-! ### SET_PARAM and TOGGLE_STAGE (R86, R87) -/

/-- The value of a SET_PARAM clamped to the parameter's range (R86). -/
def clampedSet (k : StageKind) (i : Nat) (w : Word24) : Int := paramClamp k i (paramValue k i w)

/-- A parameter set by SET_PARAM: its set value, and the change toward it (R85, R86). -/
def Param.assign (k : StageKind) (i : Nat) (w : Word24) (p : Param) : Param :=
  Param.startChange k i (clampedSet k i w) { p with set := BitVec.ofInt 24 (clampedSet k i w) }

/-- Parameter `i` of LIVE stage `idx` set, and the copy marked edited (R86, R89). -/
def State.setParam (idx i : Nat) (w : Word24) (s : State) : State :=
  s.mapSce (Sce.mapCopy .live fun c =>
    { c.mapStage idx (fun st => { st with params := st.params.modify i (Param.assign st.kind i w) })
      with edited := true })

def setParamEffect (m : Message) (s : State) : State × Reply :=
  match m.body with
  | [w1, w2] =>
    match s.sce.live with
    | none => (s, ack .notPresent)
    | some _ =>
      match s.sce.liveStage m.a0 with
      | none => (s, ack .range)
      | some st =>
        if st.kind.count ≤ bits 4 0 w1 ∨ paramClass st.kind (bits 4 0 w1) = .structural then
          (s, ack .range)
        else (s.setParam m.a0 (bits 4 0 w1) w2, ack .ok)
  | _ => (s, ack .badLength)

def toggleStageEffect (m : Message) (s : State) : State × Reply :=
  match m.body with
  | [] => answer (s.toggleStage m.a0)
  | _ => (s, ack .badLength)

/-! ### TAIL_CFG (R118) -/

def tailCfgEffect (m : Message) (s : State) : State × Reply :=
  match m.body with
  | [w1, w2, w3] =>
    (s.mapDlu fun d =>
      { d with threshold := min 8388607 w1.toNat
               quietTime := max 1 (min 65535 w2.toNat)
               limit := max 1 (min 120 w3.toNat) }, ack .ok)
  | _ => (s, ack .badLength)

end Sys2Proof.Machine
end

