-- ==== Sys2Proof/Machine/TimeCommands.lean ====
section
/-! DEFINITION. TEMPO, METER, TAP, CLICK, CUE_START, the six operations of CUE_OP, TUNER_MODE,
TUNER_REF, TUNER_SOURCE and PEDAL_CFG (chapters 8, 9 and 10). -/

namespace Sys2Proof.Machine

/-! ### TEMPO, METER, TAP, CLICK (R174–R176, R180) -/

def tempoEffect (m : Message) (s : State) : State × Reply :=
  match m.body with
  | [w] => (s.takePeriod (periodOf (bits 15 0 w)), ack .ok)
  | _ => (s, ack .badLength)

/-- A new meter: a beat in bar above it becomes the meter (R175). -/
def Tck.setMeter (n : Nat) (t : Tck) : Tck := { t with meter := n, beat := min t.beat n }

def meterEffect (m : Message) (s : State) : State × Reply :=
  match m.body with
  | [] =>
    if 1 ≤ m.a0 ∧ m.a0 ≤ 16 then (s.mapTck (Tck.setMeter m.a0), ack .ok) else (s, ack .range)
  | _ => (s, ack .badLength)

def tapEffect (m : Message) (s : State) : State × Reply :=
  match m.body with
  | [] => answer (s.tapEvent .controller m.tag)
  | _ => (s, ack .badLength)

/-- The click mode A0 names (R180). -/
def clickModeOf : Nat → Option ClickMode
  | 0 => some .off | 1 => some .on | 2 => some .countInOnly | _ => none

/-- A level of CLICK, bits 15–0 clamped (R180). -/
def clickLevel (w : Word24) : Nat := min 32768 (bits 15 0 w)

def clickEffect (m : Message) (s : State) : State × Reply :=
  match m.body with
  | [] =>
    match clickModeOf m.a0 with
    | none => (s, ack .range)
    | some c => (s.mapTck fun t => { t with clickMode := c }, ack .ok)
  | [w1, w2] =>
    match clickModeOf m.a0 with
    | none => (s, ack .range)
    | some c =>
      (s.mapTck fun t =>
        { t with clickMode := c, accentLevel := clickLevel w1, normalLevel := clickLevel w2 },
        ack .ok)
  | _ => (s, ack .badLength)

/-! ### CUE_START (R184) -/

/-- Checks 2 and 3 of R184 and the start. -/
def State.cueStartMessage (a0 countIn : Nat) (tag : Byte) (s : State) : State × Reply :=
  if h : a0 < 16 then
    if 4 < countIn then (s, ack .range) else answer (s.cueStart ⟨a0, h⟩ countIn tag)
  else (s, ack .range)

def cueStartEffect (m : Message) (s : State) : State × Reply :=
  match m.body with
  | [] => s.cueStartMessage m.a0 0 m.tag
  | [w] => s.cueStartMessage m.a0 (bits 2 0 w) m.tag
  | _ => (s, ack .badLength)

/-! ### CUE_OP (R189) -/

/-- A CUE_OP with operation `op`. -/
def cueOpEffect (op : CueOp) (m : Message) (s : State) : State × Reply :=
  match m.body with
  | [] => answer (s.cueOp op)
  | _ => (s, ack .badLength)

/-- ADVANCE; an A0 above 5 gives RANGE (R189, log 10). -/
def advanceEffect (m : Message) (s : State) : State × Reply :=
  match m.body with
  | [] => if m.a0 = 0 then answer (s.cueOp .advance) else (s, ack .range)
  | _ => (s, ack .badLength)

def skipEffect : Message → State → State × Reply := cueOpEffect .skip
def vampEffect : Message → State → State × Reply := cueOpEffect .vamp
def holdEffect : Message → State → State × Reply := cueOpEffect .hold
def resumeEffect : Message → State → State × Reply := cueOpEffect .resume
def stopEffect : Message → State → State × Reply := cueOpEffect .stop

/-! ### Tuner commands (R194, R195, R198) -/

def tunerModeOf : Nat → Option TunerMode
  | 0 => some .off | 1 => some .background | _ => none

def tunerModeEffect (m : Message) (s : State) : State × Reply :=
  match m.body with
  | [] =>
    match tunerModeOf m.a0 with
    | none => (s, ack .range)
    | some md => ((s.mapTun fun t => { t with mode := md }).followTuner s.tunerState, ack .ok)
  | _ => (s, ack .badLength)

/-- A reference that differs restarts the window (R198). -/
def Tun.setReference (r : Nat) (t : Tun) : Tun :=
  if r = t.reference then t else { t.restartWindow with reference := r }

def tunerRefEffect (m : Message) (s : State) : State × Reply :=
  match m.body with
  | [w] => (s.mapTun (Tun.setReference (max 430 (min 450 (bits 15 0 w)))), ack .ok)
  | _ => (s, ack .badLength)

def tunerSettingOf : Nat → Option TunerSetting
  | 0 => some .a | 1 => some .b | 2 => some .follow | _ => none

/-- A source setting that differs restarts the window (R195). -/
def Tun.setSource (x : TunerSetting) (t : Tun) : Tun :=
  if x = t.source then t else { t.restartWindow with source := x }

def tunerSourceEffect (m : Message) (s : State) : State × Reply :=
  match m.body with
  | [] =>
    match tunerSettingOf m.a0 with
    | none => (s, ack .range)
    | some x => (s.mapTun (Tun.setSource x), ack .ok)
  | _ => (s, ack .badLength)

/-! ### PEDAL_CFG (R150) -/

def pedalCfgEffect (m : Message) (s : State) : State × Reply :=
  match m.body with
  | [w] =>
    if m.a0 = 0 then (s, ack .range)
    else (s.mapPmn fun p => { p with debounce := m.a0, reporting := bit 0 w }, ack .ok)
  | _ => (s, ack .badLength)

end Sys2Proof.Machine
end

