-- ==== Sys2Proof/Machine/Executor.lean ====
section
/-! DEFINITION. The executor (2.3): which row of the table a message is, the reply room it needs,
and taking it. -/

namespace Sys2Proof.Machine

/-- The rows of the table that are messages taken by the executor. -/
inductive MessageRow where
  | damaged | unknown | ping | status | statusZero | meters | slotmap | restartEngine | restartAll
  | load | read | erase | commit | gateLimit | arm | disarm | switchScene | switchGate | pop
  | setParam | store | toggleStage | tempo | meter | tap | click | cueStart | advance | skip | vamp
  | hold | resume | stop | tunerMode | tunerRef | tunerSource | pedalCfg | tailCfg
  deriving DecidableEq, Repr

/-- The row of a CUE_OP by its operation; an A0 above 5 is answered as ADVANCE (log 10). -/
def cueOpRow : Nat → MessageRow
  | 1 => .skip | 2 => .vamp | 3 => .hold | 4 => .resume | 5 => .stop | _ => .advance

/-- The row of an undamaged message by its command code and A0 (2.9, R43, R44, log 10). -/
def commandRow (code a0 : Nat) : MessageRow :=
  match code with
  | 1 => .ping
  | 2 => if a0 = 1 then .statusZero else .status
  | 3 => .meters
  | 4 => .slotmap
  | 5 => if a0 = 1 then .restartAll else .restartEngine
  | 10 => .load | 11 => .read | 12 => .erase | 13 => .commit | 14 => .gateLimit
  | 20 => .arm | 21 => .disarm | 22 => .switchScene | 23 => .switchGate | 24 => .pop
  | 30 => .setParam | 31 => .store | 32 => .toggleStage
  | 40 => .tempo | 41 => .meter | 42 => .tap | 43 => .click
  | 50 => .cueStart
  | 51 => cueOpRow a0
  | 60 => .tunerMode | 61 => .tunerRef | 62 => .tunerSource
  | 70 => .pedalCfg | 71 => .tailCfg
  | _ => .unknown

/-- The row a message is (R34). -/
def Message.row (m : Message) : MessageRow :=
  if m.damaged then .damaged else commandRow m.code m.a0

/-- The reply room the executor requires (R33). -/
def MessageRow.room : MessageRow → Nat
  | .ping => 2
  | .status | .statusZero => 9
  | .read | .meters => 61
  | .damaged | .unknown | .slotmap | .restartEngine | .restartAll | .load | .erase | .commit
  | .gateLimit | .arm | .disarm | .switchScene | .switchGate | .pop | .setParam | .store
  | .toggleStage | .tempo | .meter | .tap | .click | .cueStart | .advance | .skip | .vamp | .hold
  | .resume | .stop | .tunerMode | .tunerRef | .tunerSource | .pedalCfg | .tailCfg => 1

/-- What the executor does with a message of a row, and its answer (R34). -/
def MessageRow.effect : MessageRow → Message → State → State × Reply
  | .damaged => damagedEffect
  | .unknown => unknownEffect
  | .ping => pingEffect
  | .status => statusEffect
  | .statusZero => statusZeroEffect
  | .meters => metersEffect
  | .slotmap => slotmapEffect
  | .restartEngine => restartEngineEffect
  | .restartAll => restartAllEffect
  | .load => loadEffect
  | .read => readEffect
  | .erase => eraseEffect
  | .commit => commitEffect
  | .gateLimit => gateLimitEffect
  | .arm => armEffect
  | .disarm => disarmEffect
  | .switchScene => switchSceneEffect
  | .switchGate => switchGateEffect
  | .pop => returnEffect
  | .setParam => setParamEffect
  | .store => storeEffect
  | .toggleStage => toggleStageEffect
  | .tempo => tempoEffect
  | .meter => meterEffect
  | .tap => tapEffect
  | .click => clickEffect
  | .cueStart => cueStartEffect
  | .advance => advanceEffect
  | .skip => skipEffect
  | .vamp => vampEffect
  | .hold => holdEffect
  | .resume => resumeEffect
  | .stop => stopEffect
  | .tunerMode => tunerModeEffect
  | .tunerRef => tunerRefEffect
  | .tunerSource => tunerSourceEffect
  | .pedalCfg => pedalCfgEffect
  | .tailCfg => tailCfgEffect

/-- The conditions of R32 for a message of a row at the head of the FIFO, in a frame whose
message has not been taken. -/
def State.mayTake (row : MessageRow) (s : State) : Bool :=
  s.frame.isOpen && !s.frame.taken && s.sli.waiting.isNone && row.room ≤ s.cch.room

/-- The oldest message leaves the FIFO, and the executor has acted in this frame (R29, R32, R41). -/
def State.removeHead (rest : List Message) (s : State) : State :=
  (s.mapCch fun c =>
    Cch.followFill
      { c with fifo := rest
               counters := { c.counters with executed := satAdd c.counters.executed 1 } }).mapFrame
    fun f => { f with taken := true }

/-- The answer is queued, and the reports of the action behind it (R34). -/
def State.reply (m : Message) (r : State × Reply) : State :=
  (r.1.mapCch (Cch.enqueue (r.2.record m.tag))).deliver

/-- Message `m` taken and carried out by `eff` (R32, R34). -/
def State.takeMessage (eff : Message → State → State × Reply) (m : Message) (rest : List Message)
    (s : State) : State :=
  State.reply m (eff m (s.removeHead rest))

/-- The executor takes the oldest message if it is a message of this row and the conditions of R32
hold; otherwise nothing happens (log 3). -/
def State.takeRow (row : MessageRow) (eff : Message → State → State × Reply) (s : State) : State :=
  match s.cch.fifo with
  | m :: rest => if m.row = row ∧ s.mayTake row = true then s.takeMessage eff m rest else s
  | [] => s

/-- The executor's look at the end of a frame (R32). -/
def State.executorLook (s : State) : State :=
  match s.cch.fifo with
  | m :: rest => if s.mayTake m.row then s.takeMessage m.row.effect m rest else s
  | [] => s

end Sys2Proof.Machine
end

