-- ==== Sys2Proof/Machine/Flags.lean ====
section
/-! DEFINITION. The status word (R19) and the flags it shows. -/

namespace Sys2Proof.Machine

def TunerState.value : TunerState → Nat
  | .off => 0 | .background => 1 | .engaged => 2

def CueState.value : CueState → Nat
  | .idle => 0 | .countIn => 1 | .running => 2 | .vamping => 3 | .held => 4

/-- EDITED: the flag of the LIVE working copy, 0 in passthrough (R89). -/
def State.editedFlag (s : State) : Bool := s.sce.live.any Copy.edited

/-- REPLY: the reply queue holds a word (R36). -/
def State.replyFlag (s : State) : Bool := decide (0 < s.cch.replyWords)

/-- LOADING: a slot is PREPARING (R128). -/
def State.loadingFlag (s : State) : Bool := s.stg.preparing.isSome

/-- The status word of the state as it stands (R19). -/
def State.statusWord (s : State) : Word32 :=
  BitVec.ofNat 8 (byteOf s.liveScene)
    ++ BitVec.ofNat 3 s.swu.stack.length
    ++ BitVec.ofNat 2 s.tunerState.value
    ++ BitVec.ofNat 3 s.csq.state.value
    ++ BitVec.ofNat 4 (s.tck.beat - 1)
    ++ BitVec.ofBool s.cch.hold
    ++ BitVec.ofBool s.swu.pending.isSome
    ++ BitVec.ofBool s.swu.crossfade.isSome
    ++ BitVec.ofBool s.editedFlag
    ++ BitVec.ofBool s.sce.clip
    ++ BitVec.ofBool s.replyFlag
    ++ BitVec.ofBool s.cch.dropped
    ++ BitVec.ofBool s.loadingFlag
    ++ s.sli.counter.extractLsb' 0 4

end Sys2Proof.Machine
end

