-- ==== Sys2Proof/Machine/Link.lean ====
section
/-! DEFINITION. The Stage Link (1.1–1.3): intervals, the drive of SDOUT, lock, link loss, and the
delivery of a locked frame. -/

namespace Sys2Proof.Machine

/-! ### Intervals (R3, R4, R6) -/

/-- A good interval: ended by a mark after exactly 256 bit clocks (R3). -/
def goodInterval (iv : SyncInterval) : Bool := iv.mark && iv.clocks == Config.goodClocks

/-- The bit clocks of an interval that belong to its slots: none past the 256th, and none in an interval
that did not begin at a mark (R3, log 6). -/
def slotClocks (markless : Bool) (iv : SyncInterval) : Nat :=
  if markless then 0 else min Config.goodClocks iv.clocks

/-- The slots of an interval that passed in full (R3). -/
def fullSlots (markless : Bool) (iv : SyncInterval) : Nat := slotClocks markless iv / 32

/-- The word an outbound role drives, if the role holds slot `k`. -/
def roleWord (role : Option LinkSlot) (k : Nat) (w : Word32) : Option Word32 :=
  if role.any fun i => i.val == k then some w else none

/-- The word driven in slot `k` by the map, if any role holds it (R11). -/
def SlotMap.slotWord (m : SlotMap) (o : OutWords) (k : Nat) : Option Word32 :=
  roleWord m.fohL k (wordOfSample o.fohL) <|> roleWord m.fohR k (wordOfSample o.fohR)
    <|> roleWord m.ampFeed k (wordOfSample o.ampFeed) <|> roleWord m.direct k (wordOfSample o.direct)
    <|> roleWord m.loopSend k (wordOfSample o.loopSend) <|> roleWord m.click k (wordOfSample o.click)
    <|> roleWord m.status k o.status <|> roleWord m.reply k o.reply

/-- The bits of a slot word in the order of the wire, bit 31 first (5.4, 1.5). -/
def wireBits (w : Word32) : List Bool := (List.range 32).map fun i => bit (31 - i) w

/-- What `clocks` bit clocks drive of slot `k` of SDOUT: each bit by its count from the mark, so that a
slot cut short is driven in its first bits (R3, R6, R11). -/
def Sli.drivenSlot (l : Sli) (clocks k : Nat) : List Bool :=
  match l.map.slotWord l.outbound k with
  | some w => (wireBits w).take (clocks - 32 * k)
  | none => []

/-- SDOUT as driven in the interval (R11). -/
def Sli.drive (clocks : Nat) (l : Sli) : Sli :=
  { l with sdout := #v[l.drivenSlot clocks 0, l.drivenSlot clocks 1, l.drivenSlot clocks 2,
      l.drivenSlot clocks 3, l.drivenSlot clocks 4, l.drivenSlot clocks 5, l.drivenSlot clocks 6,
      l.drivenSlot clocks 7] }

/-- The REPLY slot was driven in full (R6, R36). -/
def Sli.replyDriven (full : Nat) (l : Sli) : Bool := l.map.reply.any fun k => k.val < full

/-- A reply word driven in full leaves the queue; the ACK of a SLOTMAP makes the switch-over due
(R14, R36). -/
def State.sendReply (full : Nat) (s : State) : State :=
  if s.sli.lock = .locked ∧ s.sli.replyDriven full = true then
    (s.mapSli fun l => { l with ackSent := l.ackSent || s.cch.sendsSlotmapAck }).mapCch Cch.wordSent
  else s

/-- The peak of an output behind an interval that drives its slot in full (R91). -/
def drivenPeak (role : Option LinkSlot) (full : Nat) (x : Int) (peak : Nat) : Nat :=
  if role.any fun k => k.val < full then max peak x.natAbs else peak

/-- The two FOH peaks follow the samples driven in the interval (R91, log 14). -/
def State.followPeaks (full : Nat) (s : State) : State :=
  match s.sli.lock with
  | .unlocked => s
  | .locked =>
    s.mapSce fun e =>
      { e with peakL := drivenPeak s.sli.map.fohL full s.sli.outbound.fohL e.peakL
               peakR := drivenPeak s.sli.map.fohR full s.sli.outbound.fohR e.peakR }

/-- The judgement of an interval and, in LOCKED, its words kept for delivery as a frame unless it is
the second bad interval in a row (R4, R6, log 5). An interval that began at the 512-clock limit is
delivered like any other, with every slot counted as cut short (log 6). -/
def Sli.judge (iv : SyncInterval) (full : Nat) (l : Sli) : Sli :=
  match l.lock with
  | .unlocked =>
    { l with good := if goodInterval iv then min Config.lockCount (l.good + 1) else 0
             markless := !iv.mark }
  | .locked =>
    let bad := if goodInterval iv then 0 else l.bad + 1
    { l with bad := bad, markless := !iv.mark
             received := if bad < Config.lossCount then some { full := full, words := iv.words }
                         else none }

/-- The end of a sync interval once the frame before it is closed (R3, R6, R11, R91). -/
def State.intervalEnds (iv : SyncInterval) (s : State) : State :=
  let clocks := slotClocks s.sli.markless iv
  let full := fullSlots s.sli.markless iv
  (((s.followPeaks full).mapSli (Sli.drive clocks)).sendReply full).mapSli (Sli.judge iv full)

/-! ### Lock and link loss (R7, R8, R84, R146) -/

/-- The eighth good interval in a row has ended (R4). -/
def State.lockDue (s : State) : Bool :=
  s.sli.lock == .unlocked && decide (Config.lockCount ≤ s.sli.good)

/-- The second bad interval in a row has ended (R6). -/
def State.lossDue (s : State) : Bool :=
  s.sli.lock == .locked && decide (Config.lossCount ≤ s.sli.bad)

/-- The entry to LOCKED (R4, R5, R8, R84, R109). -/
def State.lock (s : State) : State :=
  let s := s.mapCch (Cch.enqueue (linkReport s.sli.everLocked))
  let s := s.mapSli fun l =>
    { l with lock := .locked, bad := 0, counter := 0, everLocked := true, received := none
             outbound := OutWords.idle }
  s.relockEngine.syncLines

/-- The link's own part of a link loss (R7, R15). -/
def Sli.linkLoss (l : Sli) : Sli :=
  { l with lock := .unlocked, good := 0, bad := 0
           map := if l.ackSent then l.waiting.getD l.map else l.map
           waiting := none, ackSent := false, received := none, outbound := OutWords.idle }

/-- PMN at a link loss (R156). -/
def Pmn.linkLoss (p : Pmn) : Pmn :=
  { p with switches := vmap (fun f => { f with debounce := 0 }) p.switches }

/-- TUN at a link loss (R201). -/
def State.tunerLoss (s : State) : State :=
  if s.tunerState = .off then s else s.mapTun Tun.restartWindow

/-- The entry to UNLOCKED from LOCKED (R7, R45, R122, R146, R156, R182, R201). -/
def State.linkLoss (s : State) : State :=
  let s := ((s.mapSli Sli.linkLoss).mapCch Cch.linkLoss).completeCrossfade true
  let s := s.mapDlu fun d => { d with lines := vmap Line.linkLoss d.lines }
  let s := (s.mapPmn Pmn.linkLoss).mapTck fun t =>
    { t with burst := none, burstPos := Config.burstLength }
  s.tunerLoss

/-! ### A locked frame (R6, R9, R10) -/

/-- The sample of an inbound audio role: zero for NONE and for a slot cut short (R6, R10). -/
def Received.sample (r : Received) (role : Option LinkSlot) : Int :=
  match role with
  | some k => if k.val < r.full then sampleOfWord (r.words.get k) else 0
  | none => 0

/-- The CONTROL word: IDLE for a slot cut short (R6). -/
def Received.control (r : Received) (role : Option LinkSlot) : Word32 :=
  match role with
  | some k => if k.val < r.full then r.words.get k else 0
  | none => 0

/-- The PEDAL word: the last one again for a slot cut short, the word without a reading for NONE
(R6, R10). -/
def Received.pedal (r : Received) (last : Option Word32) (role : Option LinkSlot) : Option Word32 :=
  match role with
  | some k => if k.val < r.full then some (r.words.get k) else last
  | none => none

/-- A frame processed: what was made before it counts the boundaries from here (R85, R127, R139,
R142, R152, R185). -/
def State.age (s : State) : State :=
  let s := s.mapSce fun e => { e with live := e.live.map Copy.age, fading := e.fading.map Copy.age }
  let s := s.mapStg fun g => { g with slots := vmap (fun t => { t with fresh := false }) g.slots }
  let s := s.mapSwu fun u =>
    { u with pending := u.pending.map fun p => { p with fresh := false }
             crossfade := u.crossfade.map fun x => { x with reversalFresh := false } }
  let s := s.mapPmn fun p =>
    { p with switches := vmap (fun f => { f with fresh := false }) p.switches }
  s.mapCsq fun c => { c with waiting := c.waiting.map fun w => { w with fresh := false } }

/-- The elapsed count of a crossfade in a frame (R141). -/
def Crossfade.frame (x : Crossfade) : Crossfade := { x with elapsed := min x.length (x.elapsed + 1) }

/-- The click sample goes out and the tempo clock takes the frame (R176, R178). The phase rises
unless the rise brings it to the period: that rise is the step BEAT_BOUNDARY (R171, log 18). -/
def State.clockFrame (s : State) : State :=
  let s := s.mapSli fun l => { l with outbound := { l.outbound with click := s.tck.sample } }
  let s := s.mapTck Tck.frame
  if s.tck.period ≤ s.tck.phase + 1 then s.mapFrame fun f => { f with riseDue := true }
  else s.mapTck fun t => { t with phase := t.phase + 1 }

/-- The tuner's measurement of the effective source (R195, R196). -/
def State.measureSource (a b : Int) (s : State) : State := s.measure (if s.sourceIsB then b else a)

/-- The arrival of a CONTROL word (R23). -/
def State.takeControl (w : Word32) (s : State) : State := s.mapCch (Cch.arrival (controlWord w))

/-- A block boundary follows a frame with this counter value (R5). -/
def boundaryAfter (counter : BitVec 32) : Bool := counter.toNat % Config.blockFrames == 15

/-- The end of the frame is open: what is still to come in it (log 2). -/
def State.openEnd (o : FrameOrder) (control : Word32) (a b : Int) (s : State) : State :=
  s.mapFrame fun f =>
    { isOpen := true, taken := false, blockDue := boundaryAfter s.sli.counter, atBlock := false
      tested := false, riseDue := f.riseDue
      lateControl := if o.controlLast then some control else none
      lateSamples := if o.measureLast then some (a, b) else none }

/-- A locked frame processed (R9): the received words are delivered, the chains and lines run, the
outbound samples are formed, and the end of the frame is open. An assembly timeout that the CONTROL word brings
is the step behind, so that expression changes carried out here queue their reports before its FAULT (log 42). -/
def State.deliverFrame (o : FrameOrder) (r : Received) (s : State) : State :=
  let a := r.sample s.sli.map.guitarA
  let b := r.sample s.sli.map.guitarB
  let ret := r.sample s.sli.map.loopReturn
  let control := r.control s.sli.map.control
  let pedal := r.pedal s.sli.lastPedal s.sli.map.pedal
  let s := s.age
  let s := s.mapSwu fun u => { u with crossfade := u.crossfade.map Crossfade.frame }
  let s := s.audio { a := a, b := b, ret := ret, tbm := s.tbm }
  let s := s.clockFrame
  let s := s.openEnd o control a b
  let s := if o.measureLast then s else s.measureSource a b
  let s := if o.controlLast then s else s.takeControl control
  let s := s.mapSli fun l => { l with lastPedal := pedal, received := none }
  ((s.mapPmn (Pmn.word pedal)).drainExpressions).deliver

/-- An interval waits to be delivered as a frame (R6, R9). -/
def State.frameDue (s : State) : Bool := s.sli.lock == .locked && s.sli.received.isSome

/-- The frame delivered, if one waits. -/
def State.deliverDue (o : FrameOrder) (s : State) : State :=
  match s.sli.lock, s.sli.received with
  | .locked, some r => s.deliverFrame o r
  | .locked, none => s
  | .unlocked, _ => s

end Sys2Proof.Machine
end

