-- ==== Sys2Proof/Machine/Boundary.lean ====
section
/-! DEFINITION. The steps of a block boundary (5.1, R5): counts and steps of every block, and the
events that the boundary calls for. -/

namespace Sys2Proof.Machine

/-! ### The boundary itself -/

/-- The pacing count at a boundary (R199): at 256 a TUNE record is due and the count becomes 0. -/
def Tun.pace (t : Tun) : Tun :=
  if t.pacing + 1 < Config.tunePacing then { t with pacing := t.pacing + 1 }
  else { t with pacing := 0, pacingDue := true }

/-- The tuner at a boundary: nothing rises while the state is OFF (R194, R199). -/
def State.paceTuner (s : State) : State := if s.tunerState = .off then s else s.mapTun Tun.pace

/-- A block boundary (R74, R85, R117, R128, R132, R152, R199): gate decisions and parameter steps in both
copies, the judgement of every TAIL line, the preparation in progress, the hold timers, the pacing
count. A loader that a DISARM has made idle may take again. The events of the boundary are then open. -/
def State.blockBoundary (s : State) : State :=
  let s := s.mapSce fun e =>
    { e with live := e.live.map Copy.boundary, fading := e.fading.map Copy.boundary }
  let s := s.syncLines
  let s := s.mapDlu fun d =>
    { d with lines := vmap (Line.judge d.threshold d.quietTime d.limit) d.lines }
  let s := s.mapStg fun g => { g with slots := vmap StgSlot.prepare g.slots, loaderWaits := false }
  let s := s.mapPmn fun p => { p with switches := vmap Footswitch.countHold p.switches }
  let s := s.paceTuner
  s.mapFrame fun f => { f with blockDue := false, atBlock := true, tested := false }

/-- A block boundary follows the frame and is still to come. -/
def State.boundaryDue (s : State) : Bool := s.frame.isOpen && s.frame.blockDue

/-! ### The events of a boundary -/

/-- The machine stands at a block boundary. -/
def State.atBoundary (s : State) : Bool := s.frame.isOpen && s.frame.atBlock

/-- A tail that has expired enters FREE (R117). -/
def State.expireTail (l : LineNo) (s : State) : State := s.setLine l fun _ => Line.free

def State.tailExpiryDue (l : LineNo) (s : State) : Bool :=
  s.atBoundary && (s.dlu.lines.get l).expiryDue

def State.holdDue (f : SwitchNo) (s : State) : Bool :=
  s.atBoundary && s.pmn.nextHold == some f

/-- The slot whose preparation completes at this boundary (R128). -/
def State.completion (s : State) : Option SlotNo := if s.atBoundary then s.stg.prepared else none

/-- The pending switch may start at this boundary (R139). A crossfade that completes at this
boundary is completed first, so it does not stand in the way. -/
def State.startDue (s : State) : Bool := s.atBoundary && !s.frame.tested && s.startReady

/-- The start test taken: the switch starts, or waits for the next boundary (R139, log 24). The
completion of a crossfade comes first (R139). -/
def State.startTest (s : State) : State :=
  let s := if s.completionDue then s.completeCrossfade false else s
  if s.startReady then s.startCrossfade
  else s.mapFrame fun f => { f with tested := true }

/-- The loader takes slot `i` (R128): a failed reference check empties it. -/
def State.loaderTake (i : SlotNo) (s : State) : State :=
  let t := s.stg.slots.get i
  let record := s.tbm.sceneRecord (t.scene.elim 0 Fin.val)
  if s.tbm.referencesValid record then s.startPreparation i record.preparation
  else
    let s := (s.emptySlot i).armReport i t .notPresent
    if t.demanded then s.refusePending .notPresent else s

/-- The slot the loader takes next at this boundary (R127). -/
def State.loaderNext (s : State) : Option SlotNo :=
  if s.atBoundary then s.stg.loaderChoice else none

/-- The loader's takes at a boundary: it goes on while it is idle and an eligible slot waits (R127,
R128). Four takes empty the arm queue. A loader that an invalidating write behind the step BLOCK_BOUNDARY
has made idle takes at that same boundary (log 40), one that a DISARM has at a later one (R132). -/
def State.loaderTakes : Nat → State → State
  | 0, s => s
  | n + 1, s =>
    match s.loaderNext with
    | some i => State.loaderTakes n (s.loaderTake i).deliver
    | none => s

/-- A waiting start without count-in begins at this boundary (R185). -/
def State.beginDue (s : State) : Bool := s.atBoundary && s.csq.beginDue

/-- A TUNE record is due (R199). -/
def State.pacingExpiryDue (s : State) : Bool := s.frame.isOpen && s.tun.pacingDue

/-- The TUNE record raised (R199); none once the state is OFF (R194, R201). -/
def State.pacingExpiry (s : State) : State :=
  let s := s.mapTun fun t => { t with pacingDue := false }
  if s.tunerState = .off then s else s.tuneReport

end Sys2Proof.Machine
end

