-- ==== Sys2Proof/Machine/Frame.lean ====
section
/-! DEFINITION. The events that are served before any other step (`settle`), and the close of a
frame: every step still to come at its end, in a fixed order, then the status word and the
serializer (log 2, log 8). -/

namespace Sys2Proof.Machine

/-! ### Events served before any other step -/

/-- A change of every stage of a copy. -/
def Copy.mapStages (f : Stage → Stage) (c : Copy) : Copy := { c with stages := c.stages.map f }

/-- A change of every stage of both copies. -/
def Sce.mapStages (f : Stage → Stage) (e : Sce) : Sce :=
  { e with live := e.live.map (Copy.mapStages f), fading := e.fading.map (Copy.mapStages f) }

/-- A stage of either copy satisfies `p`. -/
def Sce.anyStage (p : Stage → Bool) (e : Sce) : Bool :=
  (e.live.any fun c => c.stages.any p) || e.fading.any fun c => c.stages.any p

/-- An assembly timeout, if it is due (R26). -/
def State.serveTimeout (s : State) : State :=
  if s.cch.timedOut then s.mapCch Cch.timeOut else s

/-- The tap fades that have ended (R121). -/
def State.serveFades (s : State) : State :=
  s.mapDlu fun d => { d with lines := vmap (fun l => if l.fadeEndDue then l.fadeEnd else l) d.lines }

/-- The noise-gate ramps and holds that have ended (R73, R74). -/
def State.serveGates (s : State) : State :=
  (s.mapSce (Sce.mapStages fun st => if st.rampEndDue then st.rampEnd else st)).mapSce
    (Sce.mapStages fun st => if st.holdEndDue then st.holdEnd else st)

/-- The burst that has ended (R178). -/
def State.serveBurst (s : State) : State :=
  s.mapTck fun t => if t.burstEndDue then { t with burst := none } else t

/-- The silence that has fallen (R196). -/
def State.serveSilence (s : State) : State :=
  s.mapTun fun t => if t.silenceDue then t.fallSilent else t

/-- The action of a due cue event (R185, R188, R190). -/
def CueDue.action : CueDue → State → State
  | .countInStart => State.beginCountIn
  | .countInEnd => State.endCountIn
  | .cueEnd => State.endCue
  | .vampReload => State.reloadVamp
  | .heldAdvance => fun s => s.clearHeldOp.endCue
  | .heldSkip => fun s => s.clearHeldOp.skipCue

/-- The cue event a beat boundary has called for. -/
def State.serveCue (s : State) : State :=
  match s.csq.due with
  | some d => (s.finishCueDue d.action).deliver
  | none => s

/-- The lock, the link loss or the frame that the last interval has called for. -/
def State.serveLink (s : State) : State :=
  if s.lockDue then s.lock
  else if s.lossDue then s.linkLoss
  else s.deliverDue { controlLast := false, measureLast := false }

/-- Nothing is due that comes before every other step. -/
def State.quiet (s : State) : Bool :=
  !s.lockDue && !s.lossDue && !s.frameDue && !s.cch.timedOut
    && !vany Line.fadeEndDue s.dlu.lines
    && !s.sce.anyStage (fun st => st.rampEndDue || st.holdEndDue)
    && !s.tck.burstEndDue && !s.tun.silenceDue && s.csq.due.isNone

/-- Everything that comes before every other step, served in a fixed order (log 2). -/
def State.settle (s : State) : State :=
  if s.quiet then s
  else s.serveLink.serveTimeout.serveFades.serveGates.serveBurst.serveSilence.serveCue

/-! ### The close of a frame -/

/-- The pedal event at the head of the list, taken with its reports (R148); the expression changes
behind it follow. -/
def State.takePedal (e : PedalEvent) (rest : List PedalEvent) (s : State) : State :=
  let s := s.mapPmn fun p => { p with events := rest }
  (match e with
    | .press f => (s.pressEvent f).drainExpressions
    | .release f => (s.releaseEvent f).drainExpressions
    | .expression second v => (s.expressionChange second v).drainExpressions).deliver

/-- The pedal events still to come, `n` at most (R148). -/
def State.takePedals : Nat → State → State
  | 0, s => s
  | n + 1, s =>
    match s.pmn.events with
    | e :: rest => State.takePedals n (s.takePedal e rest).settle
    | [] => s

/-- The executor's look, if it has not acted in this frame (R32). -/
def State.closeExecutor (s : State) : State := s.executorLook.settle

/-- The CONTROL word kept for the end of the frame (log 9). -/
def State.closeControl (s : State) : State :=
  match s.frame.lateControl with
  | some w => ((s.mapFrame fun f => { f with lateControl := none }).takeControl w).settle
  | none => s

/-- The rise of the phase that is still to come (R171, R181). -/
def State.beat (s : State) : State :=
  ((s.mapFrame fun f => { f with riseDue := false }).risePhase).deliver

def State.closeBeat (s : State) : State := if s.frame.riseDue then s.beat.settle else s

/-- The hold events of the boundary, `n` at most, in number order (R152). -/
def State.takeHolds : Nat → State → State
  | 0, s => s
  | n + 1, s =>
    match s.pmn.nextHold with
    | some f => State.takeHolds n (s.holdEvent f).deliver.settle
    | none => s

/-- The preparation that completes (R129). -/
def State.closePreparation (s : State) : State :=
  match s.completion with
  | some i => (s.completePreparation i).deliver
  | none => s

/-- The reversal, or else the completion, of the crossfade (R142, R143). -/
def State.closeCrossfade (s : State) : State :=
  if s.reversalDue then s.takeReversal.deliver
  else if s.completionDue then (s.completeCrossfade false).deliver
  else s

/-- The start of the pending switch (R139, R140). -/
def State.closeStart (s : State) : State :=
  if s.startDue then s.startCrossfade.deliver else s

/-- The start of a cue list without count-in (R185). -/
def State.closeList (s : State) : State := if s.beginDue then s.beginList.deliver.settle else s

/-- The TUNE record (R199). -/
def State.closePacing (s : State) : State :=
  if s.pacingExpiryDue then s.pacingExpiry.deliver else s

/-- The tails that have expired (R117). -/
def State.closeTails (s : State) : State :=
  forEach four (fun l s => if s.tailExpiryDue l then s.expireTail l else s) s

/-- The block boundary and its events still to come (log 2). -/
def State.closeBoundary (s : State) : State :=
  let s := if s.boundaryDue then s.blockBoundary.settle else s
  if s.atBoundary then
    ((State.takeHolds 12 s.closeTails).closePreparation.closeCrossfade.closeStart.loaderTakes 4
      ).closeList.closePacing
  else s

/-- The measurement kept for the end of the frame (R201, log 9). It takes the sample of the source that is
effective then (R195, log 41). -/
def State.closeMeasure (s : State) : State :=
  match s.frame.lateSamples with
  | some (a, b) =>
    ((s.mapFrame fun f => { f with lateSamples := none }).measureSource a b).settle
  | none => s

/-- The status word and the serializer at the end of a frame, and the rise of the frame counter (R5,
R19, R37). -/
def State.endFrame (s : State) : State :=
  let s := s.mapCch Cch.serialize
  s.mapSli fun l =>
    { l with outbound := { l.outbound with status := s.statusWord, reply := s.cch.nextWord }
             counter := l.counter + 1 }

/-- The switch-over to the waiting map, once its ACK has been driven in full (R14). -/
def Sli.switchOver (l : Sli) : Sli :=
  if l.ackSent then { l with map := l.waiting.getD l.map, waiting := none, ackSent := false } else l

/-- The frame that has been processed is closed (log 2, log 8). The executor looks again behind a
CONTROL word kept for the end of the frame, which may have completed the oldest message (R32). -/
def State.closeFrame (s : State) : State :=
  if s.frame.isOpen then
    let s := State.takePedals (s.pmn.events.length) s
    let s := s.closeExecutor.closeControl.closeExecutor.closeBeat.closeBoundary.closeMeasure
    (s.endFrame.mapSli Sli.switchOver).mapFrame fun _ => FrameEnd.closed
  else s

end Sys2Proof.Machine
end

