-- ==== Sys2Proof/Machine/ExecLink.lean ====
section
/-! DEFINITION. The meanings of the steps of reset, the link and the frame (chapter 1), and of the
executor's answers in the channel (chapter 2). -/

namespace Sys2Proof.Machine

/-- A step of the chip. While RESETN is held low the chip does nothing (R16, log 7). -/
def act (f : State → State) (s : State) : Host.Outcome State Fault Refusal :=
  if s.sli.resetHeld then .next s else .next (f s)

/-- A message of a row taken by the executor (R32, R34), behind everything that comes before it
(log 2). -/
def takeMessageRow (row : MessageRow) (eff : Message → State → State × Reply) (s : State) :
    Host.Outcome State Fault Refusal :=
  act (fun s => s.settle.takeRow row eff) s

/-- RESETN is held low: SDOUT is undriven in every slot (R16). -/
def execResetnAssert (s : State) : Host.Outcome State Fault Refusal :=
  .next (s.mapSli fun l => { l with resetHeld := true, sdout := Vector.replicate 8 [] })

/-- The power-on reset (R16). The queue of steps is not the chip's. -/
def execPowerOnReset (s : State) : Host.Outcome State Fault Refusal :=
  .next { State.reset with pending := s.pending }

/-- The end of a sync interval (R3, R4, R6, R11): the frame before it is closed, the interval is
driven, judged and, in LOCKED, kept for delivery. -/
def execSyncIntervalEnd (iv : SyncInterval) (s : State) : Host.Outcome State Fault Refusal :=
  act (fun s => s.settle.closeFrame.intervalEnds iv) s

/-- The entry to LOCKED (R8). -/
def execLock (s : State) : Host.Outcome State Fault Refusal :=
  act (fun s => if s.lockDue then s.lock else s) s

/-- The entry to UNLOCKED from LOCKED (R7). -/
def execLinkLoss (s : State) : Host.Outcome State Fault Refusal :=
  act (fun s => if s.lossDue then s.linkLoss else s) s

/-- A locked frame processed as a whole (R9). -/
def execLockedFrame (o : FrameOrder) (s : State) : Host.Outcome State Fault Refusal :=
  act (fun s => s.deliverDue o) s

/-- A block boundary (R5). -/
def execBlockBoundary (s : State) : Host.Outcome State Fault Refusal :=
  act (fun s => if s.settle.boundaryDue then s.settle.blockBoundary else s.settle) s

/-- The timeout of the open message (R26). -/
def execAssemblyTimeout (s : State) : Host.Outcome State Fault Refusal :=
  act (fun s => s.serveTimeout) s

/-- The switch-over to the waiting map (R14): it falls at the end of the frame whose REPLY slot
carried the ACK, so the frame is closed. -/
def execSlotmapSwitchover (s : State) : Host.Outcome State Fault Refusal :=
  act (fun s => if s.settle.sli.ackSent then s.settle.closeFrame else s.settle) s

/-! ### Messages of the channel -/

def execDamagedMessage (s : State) : Host.Outcome State Fault Refusal :=
  takeMessageRow .damaged damagedEffect s

def execUnknownCommand (s : State) : Host.Outcome State Fault Refusal :=
  takeMessageRow .unknown unknownEffect s

def execPing (s : State) : Host.Outcome State Fault Refusal :=
  takeMessageRow .ping pingEffect s

def execStatus (s : State) : Host.Outcome State Fault Refusal :=
  takeMessageRow .status statusEffect s

def execStatusZeroCounters (s : State) : Host.Outcome State Fault Refusal :=
  takeMessageRow .statusZero statusZeroEffect s

def execMeters (s : State) : Host.Outcome State Fault Refusal :=
  takeMessageRow .meters metersEffect s

def execSlotmap (s : State) : Host.Outcome State Fault Refusal :=
  takeMessageRow .slotmap slotmapEffect s

def execRestartEngine (s : State) : Host.Outcome State Fault Refusal :=
  takeMessageRow .restartEngine restartEngineEffect s

def execRestartAll (s : State) : Host.Outcome State Fault Refusal :=
  takeMessageRow .restartAll restartAllEffect s

end Sys2Proof.Machine
end

