-- ==== Sys2Proof/Machine/ExecScenes.lean ====
section
/-! DEFINITION. The meanings of the steps of the tables (chapter 3), of staging and switching
(chapter 7), of the engine (chapter 4) and of the delay lines (chapter 6). -/

namespace Sys2Proof.Machine

/-! ### Tables -/

def execLoad (s : State) : Host.Outcome State Fault Refusal := takeMessageRow .load loadEffect s
def execRead (s : State) : Host.Outcome State Fault Refusal := takeMessageRow .read readEffect s
def execErase (s : State) : Host.Outcome State Fault Refusal := takeMessageRow .erase eraseEffect s
def execCommit (s : State) : Host.Outcome State Fault Refusal := takeMessageRow .commit commitEffect s
def execGateLimit (s : State) : Host.Outcome State Fault Refusal :=
  takeMessageRow .gateLimit gateLimitEffect s

/-! ### Staging and switching -/

def execArm (s : State) : Host.Outcome State Fault Refusal := takeMessageRow .arm armEffect s
def execDisarm (s : State) : Host.Outcome State Fault Refusal := takeMessageRow .disarm disarmEffect s

/-- The loader takes one slot at a block boundary (R127, R128). -/
def execLoaderTake (s : State) : Host.Outcome State Fault Refusal :=
  act (fun s => State.loaderTakes 1 s.settle) s

/-- The preparation in progress completes at a block boundary (R129). -/
def execPreparationComplete (s : State) : Host.Outcome State Fault Refusal :=
  act (fun s => s.settle.closePreparation) s

def execSwitchScene (s : State) : Host.Outcome State Fault Refusal :=
  takeMessageRow .switchScene switchSceneEffect s

/-- The start test of the pending switch at a block boundary (R139, R140). -/
def execCrossfadeStart (s : State) : Host.Outcome State Fault Refusal :=
  act (fun s =>
    if s.settle.atBoundary && !s.settle.frame.tested then s.settle.startTest.deliver
    else s.settle) s

/-- A held reversal request taken at a block boundary (R142). -/
def execReversal (s : State) : Host.Outcome State Fault Refusal :=
  act (fun s =>
    if s.settle.atBoundary && s.settle.reversalDue then s.settle.takeReversal.deliver
    else s.settle) s

/-- A crossfade completes at a block boundary (R143). -/
def execCrossfadeComplete (s : State) : Host.Outcome State Fault Refusal :=
  act (fun s =>
    if s.settle.atBoundary && s.settle.completionDue then
      (s.settle.completeCrossfade false).deliver
    else s.settle) s

/-! ### Engine -/

def execSetParam (s : State) : Host.Outcome State Fault Refusal :=
  takeMessageRow .setParam setParamEffect s
def execToggleStage (s : State) : Host.Outcome State Fault Refusal :=
  takeMessageRow .toggleStage toggleStageEffect s
def execStore (s : State) : Host.Outcome State Fault Refusal := takeMessageRow .store storeEffect s

/-- Stage `k` of the copy of a role changed by `f` if `due` holds of it. -/
def State.serveStage (c : CopyRole) (k : Fin 10) (due : Stage → Bool) (f : Stage → Stage)
    (s : State) : State :=
  if (s.sce.stage c k).any due then s.mapSce (Sce.mapCopy c (Copy.mapStage (k.val + 1) f)) else s

/-- The hold count of a noise gate has reached 0 (R74). -/
def execNoiseGateHoldEnd (c : CopyRole) (k : Fin 10) (s : State) :
    Host.Outcome State Fault Refusal :=
  act (fun s => s.serveStage c k Stage.holdEndDue Stage.holdEnd) s

/-- The ramp of a noise gate has ended (R73). -/
def execNoiseGateRampEnd (c : CopyRole) (k : Fin 10) (s : State) :
    Host.Outcome State Fault Refusal :=
  act (fun s => s.serveStage c k Stage.rampEndDue Stage.rampEnd) s

/-! ### Delay lines -/

/-- The tap fade of a line has ended (R121). -/
def execTapFadeEnd (l : LineNo) (s : State) : Host.Outcome State Fault Refusal :=
  act (fun s => if (s.dlu.lines.get l).fadeEndDue then s.setLine l Line.fadeEnd else s) s

/-- The tail of a line has expired at a block boundary (R117). -/
def execTailExpiry (l : LineNo) (s : State) : Host.Outcome State Fault Refusal :=
  act (fun s => if s.settle.tailExpiryDue l then s.settle.expireTail l else s.settle) s

def execTailCfg (s : State) : Host.Outcome State Fault Refusal :=
  takeMessageRow .tailCfg tailCfgEffect s

end Sys2Proof.Machine
end

