-- ==== Sys2Proof/Machine/ExecPedals.lean ====
section
/-! DEFINITION. The meanings of the steps of the footswitches, gates and the return stack (chapter
8), of the tempo clock and the click (9.1), and of the tuner (chapter 10). -/

namespace Sys2Proof.Machine

/-! ### Footswitches, gates, return stack -/

/-- The pedal event `e`, if it is the next to be taken at the end of the frame (R148). -/
def State.pedalStep (e : PedalEvent) (s : State) : State :=
  match s.pmn.events with
  | x :: rest => if x = e ∧ s.frame.isOpen = true then s.takePedal e rest else s
  | [] => s

/-- A press event (R151). -/
def execFootswitchPress (f : SwitchNo) (s : State) : Host.Outcome State Fault Refusal :=
  act (fun s => s.settle.pedalStep (.press f)) s

/-- A hold event (R152). -/
def execHoldEvent (f : SwitchNo) (s : State) : Host.Outcome State Fault Refusal :=
  act (fun s => if s.settle.holdDue f then (s.settle.holdEvent f).deliver else s.settle) s

/-- A release event (R153). -/
def execFootswitchRelease (f : SwitchNo) (s : State) : Host.Outcome State Fault Refusal :=
  act (fun s => s.settle.pedalStep (.release f)) s

def execPedalCfg (s : State) : Host.Outcome State Fault Refusal :=
  takeMessageRow .pedalCfg pedalCfgEffect s
def execSwitchGate (s : State) : Host.Outcome State Fault Refusal :=
  takeMessageRow .switchGate switchGateEffect s
def execReturn (s : State) : Host.Outcome State Fault Refusal := takeMessageRow .pop returnEffect s

/-! ### Tempo clock and click -/

def execTempo (s : State) : Host.Outcome State Fault Refusal := takeMessageRow .tempo tempoEffect s
def execMeter (s : State) : Host.Outcome State Fault Refusal := takeMessageRow .meter meterEffect s
def execTap (s : State) : Host.Outcome State Fault Refusal := takeMessageRow .tap tapEffect s
def execClick (s : State) : Host.Outcome State Fault Refusal := takeMessageRow .click clickEffect s

/-- The rise of the phase that reaches the period, with its boundary (R171, R181). -/
def execBeatBoundary (s : State) : Host.Outcome State Fault Refusal :=
  act (fun s =>
    if s.settle.frame.isOpen && s.settle.frame.riseDue then s.settle.beat else s.settle) s

/-- The burst position has reached 480 (R178). -/
def execClickBurstEnd (s : State) : Host.Outcome State Fault Refusal :=
  act (fun s => s.serveBurst) s

/-! ### Tuner -/

def execTunerMode (s : State) : Host.Outcome State Fault Refusal :=
  takeMessageRow .tunerMode tunerModeEffect s
def execTunerRef (s : State) : Host.Outcome State Fault Refusal :=
  takeMessageRow .tunerRef tunerRefEffect s
def execTunerSource (s : State) : Host.Outcome State Fault Refusal :=
  takeMessageRow .tunerSource tunerSourceEffect s

/-- 4,800 measured frames without a crossing (R196). -/
def execTunerSilence (s : State) : Host.Outcome State Fault Refusal :=
  act (fun s => s.serveSilence) s

/-- The pacing count has reached 256 (R199). -/
def execTunePacingExpiry (s : State) : Host.Outcome State Fault Refusal :=
  act (fun s => s.settle.closePacing) s

end Sys2Proof.Machine
end

