-- ==== Sys2Proof/Machine/ExecCues.lean ====
section
/-! DEFINITION. The meanings of the steps of the cue sequencer (9.2). -/

namespace Sys2Proof.Machine

def execCueStart (s : State) : Host.Outcome State Fault Refusal :=
  takeMessageRow .cueStart cueStartEffect s

/-- A waiting start without count-in begins at a block boundary (R185). -/
def execCueListBegin (s : State) : Host.Outcome State Fault Refusal :=
  act (fun s => if s.settle.beginDue then s.settle.beginList.deliver else s.settle) s

/-- The cue event `d`, if a beat boundary has called for it (R185, R188, R190). -/
def State.cueStep (d : CueDue) (f : State → State) (s : State) : State :=
  if s.csq.due = some d then (s.finishCueDue f).deliver else s

/-- A count-in begins (R185). -/
def execCountInStart (s : State) : Host.Outcome State Fault Refusal :=
  act (fun s => s.cueStep .countInStart State.beginCountIn) s

/-- A count-in ends and the first record is loaded (R185). -/
def execCountInEnd (s : State) : Host.Outcome State Fault Refusal :=
  act (fun s => s.cueStep .countInEnd State.endCountIn) s

/-- The current cue ends at remaining 0 (R188). -/
def execCueEnd (s : State) : Host.Outcome State Fault Refusal :=
  act (fun s => s.cueStep .cueEnd State.endCue) s

/-- A vamp reloads (R188). -/
def execVampReload (s : State) : Host.Outcome State Fault Refusal :=
  act (fun s => s.cueStep .vampReload State.reloadVamp) s

def execAdvance (s : State) : Host.Outcome State Fault Refusal :=
  takeMessageRow .advance advanceEffect s
def execSkip (s : State) : Host.Outcome State Fault Refusal := takeMessageRow .skip skipEffect s
def execVamp (s : State) : Host.Outcome State Fault Refusal := takeMessageRow .vamp vampEffect s
def execHold (s : State) : Host.Outcome State Fault Refusal := takeMessageRow .hold holdEffect s
def execResume (s : State) : Host.Outcome State Fault Refusal :=
  takeMessageRow .resume resumeEffect s
def execStop (s : State) : Host.Outcome State Fault Refusal := takeMessageRow .stop stopEffect s

/-- A held ADVANCE is carried out (R190). -/
def execHeldAdvanceCarriedOut (s : State) : Host.Outcome State Fault Refusal :=
  act (fun s => s.cueStep .heldAdvance fun s => s.clearHeldOp.endCue) s

/-- A held SKIP is carried out (R190). -/
def execHeldSkipCarriedOut (s : State) : Host.Outcome State Fault Refusal :=
  act (fun s => s.cueStep .heldSkip fun s => s.clearHeldOp.skipCue) s

end Sys2Proof.Machine
end

