-- ==== Sys2Proof/Machine/Dispatch.lean ====
section
/-! DEFINITION. What every step of the table does: one arm per constructor. -/

namespace Sys2Proof.Machine

def exec (i : Instr) (s : State) : Host.Outcome State Fault Refusal :=
  match i with
  | .resetnAssert => Sys2Proof.Machine.execResetnAssert s
  | .powerOnReset => Sys2Proof.Machine.execPowerOnReset s
  | .syncIntervalEnd iv => Sys2Proof.Machine.execSyncIntervalEnd iv s
  | .lock => Sys2Proof.Machine.execLock s
  | .linkLoss => Sys2Proof.Machine.execLinkLoss s
  | .lockedFrame o => Sys2Proof.Machine.execLockedFrame o s
  | .blockBoundary => Sys2Proof.Machine.execBlockBoundary s
  | .assemblyTimeout => Sys2Proof.Machine.execAssemblyTimeout s
  | .damagedMessage => Sys2Proof.Machine.execDamagedMessage s
  | .unknownCommand => Sys2Proof.Machine.execUnknownCommand s
  | .ping => Sys2Proof.Machine.execPing s
  | .status => Sys2Proof.Machine.execStatus s
  | .statusZeroCounters => Sys2Proof.Machine.execStatusZeroCounters s
  | .meters => Sys2Proof.Machine.execMeters s
  | .slotmap => Sys2Proof.Machine.execSlotmap s
  | .slotmapSwitchover => Sys2Proof.Machine.execSlotmapSwitchover s
  | .restartEngine => Sys2Proof.Machine.execRestartEngine s
  | .restartAll => Sys2Proof.Machine.execRestartAll s
  | .load => Sys2Proof.Machine.execLoad s
  | .read => Sys2Proof.Machine.execRead s
  | .erase => Sys2Proof.Machine.execErase s
  | .commit => Sys2Proof.Machine.execCommit s
  | .gateLimit => Sys2Proof.Machine.execGateLimit s
  | .arm => Sys2Proof.Machine.execArm s
  | .disarm => Sys2Proof.Machine.execDisarm s
  | .loaderTake => Sys2Proof.Machine.execLoaderTake s
  | .preparationComplete => Sys2Proof.Machine.execPreparationComplete s
  | .switchScene => Sys2Proof.Machine.execSwitchScene s
  | .crossfadeStart => Sys2Proof.Machine.execCrossfadeStart s
  | .reversal => Sys2Proof.Machine.execReversal s
  | .crossfadeComplete => Sys2Proof.Machine.execCrossfadeComplete s
  | .setParam => Sys2Proof.Machine.execSetParam s
  | .toggleStage => Sys2Proof.Machine.execToggleStage s
  | .store => Sys2Proof.Machine.execStore s
  | .noiseGateHoldEnd c k => Sys2Proof.Machine.execNoiseGateHoldEnd c k s
  | .noiseGateRampEnd c k => Sys2Proof.Machine.execNoiseGateRampEnd c k s
  | .tapFadeEnd l => Sys2Proof.Machine.execTapFadeEnd l s
  | .tailExpiry l => Sys2Proof.Machine.execTailExpiry l s
  | .tailCfg => Sys2Proof.Machine.execTailCfg s
  | .footswitchPress f => Sys2Proof.Machine.execFootswitchPress f s
  | .holdEvent f => Sys2Proof.Machine.execHoldEvent f s
  | .footswitchRelease f => Sys2Proof.Machine.execFootswitchRelease f s
  | .pedalCfg => Sys2Proof.Machine.execPedalCfg s
  | .switchGate => Sys2Proof.Machine.execSwitchGate s
  | .returnPop => Sys2Proof.Machine.execReturn s
  | .tempo => Sys2Proof.Machine.execTempo s
  | .meter => Sys2Proof.Machine.execMeter s
  | .tap => Sys2Proof.Machine.execTap s
  | .click => Sys2Proof.Machine.execClick s
  | .beatBoundary => Sys2Proof.Machine.execBeatBoundary s
  | .clickBurstEnd => Sys2Proof.Machine.execClickBurstEnd s
  | .cueStart => Sys2Proof.Machine.execCueStart s
  | .cueListBegin => Sys2Proof.Machine.execCueListBegin s
  | .countInStart => Sys2Proof.Machine.execCountInStart s
  | .countInEnd => Sys2Proof.Machine.execCountInEnd s
  | .cueEnd => Sys2Proof.Machine.execCueEnd s
  | .vampReload => Sys2Proof.Machine.execVampReload s
  | .advance => Sys2Proof.Machine.execAdvance s
  | .skip => Sys2Proof.Machine.execSkip s
  | .vamp => Sys2Proof.Machine.execVamp s
  | .hold => Sys2Proof.Machine.execHold s
  | .resume => Sys2Proof.Machine.execResume s
  | .stop => Sys2Proof.Machine.execStop s
  | .heldAdvanceCarriedOut => Sys2Proof.Machine.execHeldAdvanceCarriedOut s
  | .heldSkipCarriedOut => Sys2Proof.Machine.execHeldSkipCarriedOut s
  | .tunerMode => Sys2Proof.Machine.execTunerMode s
  | .tunerRef => Sys2Proof.Machine.execTunerRef s
  | .tunerSource => Sys2Proof.Machine.execTunerSource s
  | .tunerSilence => Sys2Proof.Machine.execTunerSilence s
  | .tunePacingExpiry => Sys2Proof.Machine.execTunePacingExpiry s

end Sys2Proof.Machine
end

