-- ==== Sys2Proof/Safety.lean ====
section
/-! DEFINITION. The terms the statements use: when a message is taken, what an answer leaves in the
channel, the records of the reports, what a write withdraws, what a chain and a delay line give in a
frame, and the invariants of the machine. -/

namespace Sys2Proof.Machine

/-! ### When a step acts -/

/-- RESETN is high, nothing is due that comes before every other step (log 2), and no report of an
earlier action is still outside the reply queue. -/
structure State.Settled (s : State) : Prop where
  awake    : s.sli.resetHeld = false
  quiet    : s.quiet = true
  reported : s.cch.outbox = []

/-- The oldest message of the FIFO is `m`, a message of the row, and the executor may take it (R32,
R33); `rest` waits behind it. -/
structure Takes (row : MessageRow) (m : Message) (rest : List Message) (s : State) : Prop where
  settled : s.Settled
  head    : s.cch.fifo = m :: rest
  isRow   : m.row = row
  may     : s.mayTake row = true

/-- The row of a message that a step of the table takes, for the steps of the executor. -/
def messageRowOf : Instr → Option MessageRow
  | .damagedMessage => some .damaged
  | .unknownCommand => some .unknown
  | .ping => some .ping
  | .status => some .status
  | .statusZeroCounters => some .statusZero
  | .meters => some .meters
  | .slotmap => some .slotmap
  | .restartEngine => some .restartEngine
  | .restartAll => some .restartAll
  | .load => some .load
  | .read => some .read
  | .erase => some .erase
  | .commit => some .commit
  | .gateLimit => some .gateLimit
  | .arm => some .arm
  | .disarm => some .disarm
  | .switchScene => some .switchScene
  | .setParam => some .setParam
  | .toggleStage => some .toggleStage
  | .store => some .store
  | .tailCfg => some .tailCfg
  | .pedalCfg => some .pedalCfg
  | .switchGate => some .switchGate
  | .returnPop => some .pop
  | .tempo => some .tempo
  | .meter => some .meter
  | .tap => some .tap
  | .click => some .click
  | .cueStart => some .cueStart
  | .advance => some .advance
  | .skip => some .skip
  | .vamp => some .vamp
  | .hold => some .hold
  | .resume => some .resume
  | .stop => some .stop
  | .tunerMode => some .tunerMode
  | .tunerRef => some .tunerRef
  | .tunerSource => some .tunerSource
  | .resetnAssert | .powerOnReset | .syncIntervalEnd _ | .lock | .linkLoss | .lockedFrame _
  | .blockBoundary | .assemblyTimeout | .slotmapSwitchover | .loaderTake | .preparationComplete
  | .crossfadeStart | .reversal | .crossfadeComplete | .noiseGateHoldEnd _ _
  | .noiseGateRampEnd _ _ | .tapFadeEnd _ | .tailExpiry _ | .footswitchPress _ | .holdEvent _
  | .footswitchRelease _ | .beatBoundary | .clickBurstEnd | .cueListBegin | .countInStart
  | .countInEnd | .cueEnd | .vampReload | .heldAdvanceCarriedOut | .heldSkipCarriedOut
  | .tunerSilence | .tunePacingExpiry => none

/-! ### What an answer leaves -/

/-- HOLD at a new fill (R30). -/
def holdAt (fill : Nat) (old : Bool) : Bool :=
  if 96 ≤ fill then true else if fill ≤ 32 then false else old

/-- The channel once the oldest message has left the FIFO and its answer is queued in class 2 (R29,
R30, R34, R41). -/
def Cch.answered (rest : List Message) (r : Record) (c : Cch) : Cch :=
  { c with
    fifo := rest
    hold := holdAt ({ c with fifo := rest } : Cch).fill c.hold
    counters := { c.counters with executed := min 65535 (c.counters.executed + 1) }
    class2 := c.class2 ++ [r] }

/-- The state in which message `m` has been answered and nothing else has changed: the message has
left the FIFO, its answer is queued and the executor has acted in this frame. -/
def State.answered (m : Message) (rest : List Message) (r : Reply) (s : State) : State :=
  { s with cch := s.cch.answered rest (r.record m.tag), frame := { s.frame with taken := true } }

/-- The state with reports queued in order, each by the drop rule of its class (R38, R39). -/
def State.reporting (rs : List Record) (s : State) : State :=
  { s with cch := rs.foldl (fun c r => c.enqueue r) s.cch }

/-- The eight words STATUS answers with (R43), once the message has left the FIFO with `rest`
behind it. -/
def State.statusData (rest : List Message) (s : State) : List Word24 :=
  let n := s.cch.counters
  [payload ((if s.sce.clip then 1 <<< 23 else 0) + (if s.cch.dropped then 1 <<< 22 else 0)
     + ({ s.cch with fifo := rest } : Cch).fill <<< 8),
   payload (min 65535 (n.executed + 1)), payload n.fragments, payload n.timeouts,
   payload n.wordsDropped, payload n.recordsDropped, payload s.cch.replyWords,
   payload n.tuneDropped]

/-- The fourteen words METERS answers with (R91). -/
def State.meterData (s : State) : List Word24 :=
  let stages := s.sce.live.elim [] Copy.stages
  payload (byteOf s.liveScene <<< 16 + stages.length <<< 8)
    :: payload s.sce.peakL :: payload s.sce.peakR :: payload s.sce.mixClips
    :: (List.range 10).map fun k => payload (stages[k]?.elim 0 Stage.clips)

/-! ### The records of the reports -/

/-- The SWITCH report (R144). -/
def switchRecord (r : Request) (code : Code) (frm dest : Option SceneNo) (reversed edits : Bool) :
    Record :=
  { kind := .switch, tag := r.tag, code := code
    body := [payload (byteOf frm <<< 16 + byteOf dest <<< 8 + r.source.value <<< 6
               + (if reversed then 2 else 0) + (if edits then 1 else 0)),
             payload (byteOf r.gate <<< 16 + byteOf r.owner <<< 8)]
    ends := false }

/-- The ARM report about slot `i` that held `t` (R131). -/
def armRecord (i : SlotNo) (t : StgSlot) (code : Code) : Record :=
  { kind := .arm, tag := t.tag, code := code
    body := [payload (byteOf t.scene <<< 16 + i.val <<< 8 + t.origin.value <<< 6)], ends := false }

/-- The PEDAL report (R155). -/
def pedalRecord (event number : Nat) (deferred : Bool) : Record :=
  { kind := .pedal, tag := 0, code := .ok
    body := [payload (event <<< 22 + number <<< 18 + (if deferred then 1 <<< 17 else 0))]
    ends := false }

/-- The PEDAL report of a change of expression pedal 1 or 2 (R154, R155). -/
def expressionRecord (pedal value : Nat) : Record :=
  { kind := .pedal, tag := 0, code := .ok
    body := [payload (3 <<< 22 + pedal <<< 18 + value)], ends := false }

/-- The CUE report about record `i` of scene `scene` (R191). -/
def cueRecord (tag : Byte) (code : Code) (event reason : Nat) (list : Fin 16) (i : Nat)
    (scene : Option SceneNo) (beats : Nat) (look : Bool) (bars : Nat) : Record :=
  { kind := .cue, tag := tag, code := code
    body := [payload (event <<< 22 + reason <<< 20 + list.val <<< 16 + i),
             payload (byteOf scene <<< 16 + beats <<< 4 + (if look then 8 else 0) + bars)]
    ends := false }

/-- The GATE report of a dispatch by footswitch `f` that reached the else gate `reached`, if any
(R159). -/
def gateRecord (f : SwitchNo) (event : Nat) (g : GateNo) (reached : Option GateNo) (code : Code) :
    Record :=
  { kind := .gate, tag := 0, code := code
    body := [payload (g.val <<< 16 + byteOf reached <<< 8 + 1 <<< 6 + event <<< 4 + f.val)]
    ends := false }

/-- The TEMPO report of a tap that has set a period, `moved` where its boundary moved the beat on (R177). -/
def tempoRecord (src : Source) (tag : Byte) (moved : Bool) (intervals period : Nat) : Record :=
  { kind := .tempo, tag := tag, code := .ok
    body := [payload (src.value <<< 22 + (if moved then 1 <<< 21 else 0) + intervals <<< 18 + period)]
    ends := false }

/-! ### What a write withdraws -/

/-- The state `u` once the staged copy in slot `i` has been withdrawn (R64), judged by the state `s`
in which the write is taken: the slot is EMPTY and out of both orders, a QUEUED or PREPARING one is
reported INVALIDATED, and the pending switch that waits on it is gone, with its report behind (log 37). -/
def State.withdrawing (s : State) (i : SlotNo) (u : State) : State :=
  let slot := s.stg.slots.get i
  let waiting := s.swu.pending.filter fun p => slot.scene.isSome && p.req.target == slot.scene
  ({ u with
    stg := { u.stg with
      slots := upd u.stg.slots i StgSlot.vacant
      armQueue := u.stg.armQueue.filter (· ≠ i)
      readyOrder := u.stg.readyOrder.filter (· ≠ i) }
    swu := if waiting.isSome then { u.swu with pending := none } else u.swu } : State).reporting
      ((if slot.state = .queued ∨ slot.state = .preparing then [armRecord i slot .invalidated]
        else []) ++
        waiting.toList.map fun p =>
          switchRecord p.req .invalidated s.destination slot.scene false false)

/-- The state `u` once every staged copy that a write to the entry makes stale has been withdrawn, in
slot-number order (R64). -/
def State.withdrawingStale (s : State) (k : TableKind) (idx : Nat) (u : State) : State :=
  (four.filter fun i => s.tbm.makesStale k idx (s.stg.slots.get i)).foldl
    (fun u i => s.withdrawing i u) u

/-! ### What a COMMIT checks and a crossfade start makes -/

/-- The place of the header word of stage `k` in a SCENE entry (R47). -/
def stagePlace (word : Nat → Word24) : Nat → Nat
  | 0 => 4
  | k + 1 => stagePlace word k + 1 + bits 7 0 (word (stagePlace word k))

/-- The working copy made from a prepared image (R68, R69): set and running values are the image's words, the
signed ones those of the coefficients of EQ and AMP stages, and no change is in progress; each enable gain goes
by its flag and each stage state has its start value. -/
def Copy.fresh (im : Image) : Copy :=
  { inputSelect := im.record.inputSelect, fadeCode := im.record.fadeCode, level := im.record.level
    taps := im.taps, edited := false
    stages := im.record.stages.map fun r =>
      let zero : Biquad := { x1 := 0, x2 := 0, y1 := 0, y2 := 0 }
      { kind := r.kind, enabled := r.enabled, gain := if r.enabled then 32768 else 0, clips := 0
        params := r.params.mapIdx fun i w =>
          let signed := r.kind = .eq ∨ (r.kind = .amp ∧ (i < 5 ∨ (10 ≤ i ∧ i < 25)))
          { set := w, run := if signed then w.toInt else w.toNat, change := none, fresh := false }
        st := match r.kind with
          | .gate => .gate
            { st := .opened, gain := 32768, hold := 0, peak := 0, start := 0, len := 0, k := 0 }
          | .eq => .eq zero
          | .drive => .drive
          | .amp => .amp zero 0 zero zero zero
          | .cab => .cab []
          | .mod => .mod [] 0
          | .delay => .delay
          | .loop => .loop
          | .volume => .volume } }

/-! ### What a chain and a delay line give in a frame -/

/-- The enable gain in the frame (R71). -/
def Stage.frameGain (st : Stage) : Nat :=
  if st.enabled then min 32768 (st.gain + 128) else st.gain - 128

/-- The input of stage `k` of a chain, counted from 0; at the number of stages, the end signal (R70,
R71). -/
def Copy.inputAt (f : FrameIn) (c : Copy) (k : Nat) : Int :=
  (c.stages.take k).foldl (fun x st => x + share ((st.process f c.taps x).p - x) st.frameGain)
    (inputOf c.inputSelect f)

/-- What stage `k` of a chain makes of its input (R73–R79). -/
def Copy.processed (f : FrameIn) (c : Copy) (k : Nat) (st : Stage) : Processed :=
  st.process f c.taps (c.inputAt f k)

/-- The end signal at the output level, before its clamp (R70). -/
def Copy.levelled (f : FrameIn) (c : Copy) : Int :=
  share (c.inputAt f c.stages.length) (min 65535 c.level.toNat : Nat)

/-- The chain output (R70). -/
def Copy.frameOut (f : FrameIn) (c : Copy) : Int := clampSample (c.levelled f)

/-- The value `g` gives for the first stage of a kind, by its place and itself (a scene has at most one
CAB and one LOOP stage, R61). -/
def Copy.atKind (kind : StageKind) (g : Nat → Stage → Int) (c : Copy) : Option Int :=
  (c.stages.mapIdx fun k st => if st.kind = kind then some (g k st) else none).findSome? id

/-- The amp tap: the input of the CAB stage, or the chain output (R70). -/
def Copy.ampTap (f : FrameIn) (c : Copy) : Int :=
  (c.atKind .cab fun k _ => c.inputAt f k).getD (c.frameOut f)

/-- The loop send: that of the LOOP stage, weighted by its enable gain, or 0 (R70, R71, R78). -/
def Copy.loopSend (f : FrameIn) (c : Copy) : Int :=
  (c.atKind .loop fun k st => share (c.processed f k st).loop st.frameGain).getD 0

/-- The sends of a copy of this weight into line `l` (R71, R77, R111). -/
def Copy.sendInto (f : FrameIn) (l : LineNo) (weight : Nat) (c : Copy) : Int :=
  (c.stages.mapIdx fun k st =>
    if lineRef st.kind (st.params.map Param.set) = some l.val then
      share (share (share (c.inputAt f k) st.frameGain) (st.val 1)) weight
    else 0).sum

/-- The clips that the stages of a copy count (R92). -/
def Copy.stageClips (f : FrameIn) (c : Copy) : Nat :=
  (c.stages.mapIdx fun k st => (c.processed f k st).clips).sum

/-- The copy behind the frame: enable gains, stage states and clip counters have moved (R69, R71,
R92). -/
def Copy.afterFrame (f : FrameIn) (c : Copy) : Copy :=
  { c with stages := c.stages.mapIdx fun k st =>
      let p := c.processed f k st
      { st with gain := st.frameGain, st := p.st, clips := min 65535 (st.clips + p.clips) } }

/-- The tap sample of a line in the frame (R106, R110). -/
def Line.tapSample (l : Line) : Int :=
  let tap : Nat → Int := fun d => l.mem.getD (d - 1) 0
  let w : Int := 32 * (l.position + 1 : Nat)
  if l.target = l.current then tap l.current
  else (tap l.target * w + tap l.current * (32768 - w) + 16384) / 32768

/-- The wet output of a line in the frame (R112). -/
def Line.wetSample (l : Line) : Int := share l.tapSample l.wet

/-- The fade factor of a line under crossfade weight `w`, if a crossfade is in flight (R114). -/
def Line.frameFactor (w : Option Nat) (l : Line) : Nat :=
  match w with
  | none => 32768
  | some w => if l.state = .live ∧ l.owner1 = none ∧ l.tail = false then 32768 - w else 32768

/-- A LIVE line that takes the values its governing stage hands it under a beat period: the levels and the
tail flag at once (R109), and the effective time (R119) as a time change, set without a fade in an empty
line, held behind a tap fade in flight, and else the start of one (R120). -/
def Line.handed (period : Nat) (st : Stage) (x : Line) : Line :=
  let y : Line := { x with
    feedback := (st.val 6).toNat, wet := (st.val 7).toNat, pan := (st.val 8).toNat
    tail := decide (st.val 9 = 1) }
  let time :=
    if (st.val 2).toNat = 0 then (st.val 3).toNat
    else max 1 (min (period * (st.val 4).toNat / (st.val 5).toNat) 98303)
  if x.mem = [] then { y with current := time, target := time, held := none, position := 0 }
  else if x.target ≠ x.current then { y with held := if time = x.target then none else some time }
  else if time = x.current then y
  else { y with target := time, position := 0 }

/-- Line `l` once the engine has handed it its values: a LIVE line takes those of the LIVE copy's stage that
references it, or else of the FADING copy's; any other line is kept (R109). -/
def Sce.handedLine (e : Sce) (period : Nat) (l : LineNo) (x : Line) : Line :=
  if x.state ≠ .live then x
  else
    match e.live.bind (·.delayOn l), e.fading.bind (·.delayOn l) with
    | some st, _ => x.handed period st
    | none, some st => x.handed period st
    | none, none => x

/-! ### What an expression change leaves -/

/-- A change of expression pedal 1 (or 2, at `second`) to the value `v`: the last accepted value, the PEDAL
report where reporting is on, and the maps of the pedal (R88, R154, R155). -/
def State.changed (s : State) (second : Bool) (v : Nat) : State :=
  let pedal := if second then 2 else 1
  let last := if second then { s.pmn with last2 := v } else { s.pmn with last1 := v }
  ({ s with
    pmn := last
    cch := { s.cch with
      outbox := s.cch.outbox ++ if s.pmn.reporting then [expressionRecord pedal v] else [] } } :
    State).applyExpMaps pedal v

/-- The state `u` behind a footswitch event, with the expression changes that stood directly behind it taken
in order and `rest` left to come; where the event has called for a cue event, they wait (R148, log 17). -/
def State.thenChanges (u : State) (changes : List (Bool × Nat)) (rest : List PedalEvent) : State :=
  if u.csq.due = none then
    changes.foldl (fun s c => s.changed c.1 c.2) { u with pmn := { u.pmn with events := rest } }
  else u

/-! ### What a beat boundary and the load of a cue record leave -/

/-- The first thing that waits in the list of confirmed events is no expression change (log 17). -/
def State.NoChangeWaits (s : State) : Prop := ∀ b v es, s.pmn.events ≠ .expression b v :: es

/-- What a beat boundary, advancing or not, at `bar` a bar boundary, leaves of a sequencer with no cue event
due (R172, R185, R188, R190, log 17). -/
def Csq.TakesBoundary (q : Csq) (advancing bar : Prop) (r : Csq) : Prop :=
  let countInWaits := ∃ w, q.waiting = some w ∧ 1 ≤ w.countIn
  let playing := q.state = .running ∨ q.state = .vamping ∨ q.state = .held
  (q.state = .idle → bar → countInWaits → r = { q with due := some .countInStart }) ∧
  (q.state = .idle → ¬ bar ∨ ¬ countInWaits → r = q) ∧
  (q.state = .countIn → advancing → bar → r = { q with
    barsLeft := q.barsLeft - 1
    due := if q.barsLeft ≤ 1 then some .countInEnd else none }) ∧
  (q.state = .countIn → ¬ advancing ∨ ¬ bar → r = q) ∧
  (playing → q.heldOp = some .advance → r = { q with due := some .heldAdvance }) ∧
  (playing → q.heldOp = some .skip → r = { q with due := some .heldSkip }) ∧
  (q.state = .running ∨ q.state = .vamping → q.heldOp = none → advancing →
    ∀ n, q.remaining = n + 1 → r = { q with
      remaining := n
      due := if n ≠ 0 then none
             else if q.state = .vamping then some .vampReload else some .cueEnd }) ∧
  (q.state = .running ∨ q.state = .vamping → q.heldOp = none → ¬ advancing ∨ q.remaining = 0 →
    r = q) ∧
  (q.state = .held → q.heldOp = none → r = q)

/-- What a beat boundary that leaves the beat in bar at `beat` does to its three consumers (R172): the pending
switch latches it, and behind a block boundary of the same frame waits for the next one (R136, log 27); the
sequencer takes it; and where no cue event is due, a burst starts by the click mode and the sequencer, accented
on beat 1 (R179, R180). -/
def State.BoundaryRaised (s : State) (advancing : Prop) (beat : Nat) (t : State) : Prop :=
  let clicks := s.tck.clickMode = .on ∨ s.csq.state = .countIn ∨
    (s.tck.clickMode = .countInOnly ∧ ∃ w, s.csq.waiting = some w ∧ 1 ≤ w.countIn)
  t.swu = { s.swu with pending := s.swu.pending.map fun p =>
    let counts := p.req.quantize == .beat || (beat == 1 && p.req.quantize == .bar)
    { p with
      passed := p.passed || counts
      fresh := p.fresh || (s.frame.atBlock && counts && !p.passed) } } ∧
  s.csq.TakesBoundary advancing (beat = 1) t.csq ∧
  (t.csq.due = none → clicks → t.tck.burstPos = 0 ∧
    t.tck.burst = some (if beat = 1 then .accent else .normal)) ∧
  (t.csq.due ≠ none ∨ ¬ clicks → t.tck.burst = s.tck.burst ∧ t.tck.burstPos = s.tck.burstPos)

/-- The click of a boundary whose cue event has been taken, with the phase at 0 and no start waiting, where the
sequencer has left COUNT_IN (R179, R180). -/
def State.ClickedBehindEvent (s t : State) : Prop :=
  (s.tck.clickMode = .on → t.tck.burstPos = 0 ∧
    t.tck.burst = some (if s.tck.beat = 1 then .accent else .normal)) ∧
  (s.tck.clickMode ≠ .on → s.csq.waiting = none → s.tck.phase = 0 →
    t.tck.burst = s.tck.burst ∧ t.tck.burstPos = s.tck.burstPos)

/-- What the load of cue record `i` in state `s` leaves (R173, R186, R187, R191): the tempo of the record, if
it holds one, with its values handed to the lines (R119); the current index, the remaining beats and RUNNING;
the base switch of the record; the cue pins cleared and the look-ahead with its arm; and the LOADED report with
the outcomes of the switch and of the look-ahead. -/
def State.Loads (s : State) (i : Nat) (t : State) : Prop :=
  let q := s.tbm.cue i
  let period := (288000000 + max 2000 (min q.tempo 24000) / 2) / max 2000 (min q.tempo 24000)
  t.csq.state = .running ∧ t.csq.current = some i ∧ t.csq.remaining = q.length ∧
  t.csq.lookAhead = (if q.cont = true ∧ i + 1 ≤ 1023 then some (i + 1) else none) ∧
  (q.tempo ≠ 0 → t.tck.phase = 0 ∧ t.tck.period = period ∧ t.tck.tapOpen = false ∧
    t.tck.tapHistory = [] ∧ t.dlu = { s.dlu with lines := t.dlu.lines } ∧
    ∀ l, t.dlu.lines.get l = s.sce.handedLine period l (s.dlu.lines.get l)) ∧
  (q.tempo = 0 → t.tck.period = s.tck.period ∧ t.tck.phase = s.tck.phase ∧
    t.tck.tapOpen = s.tck.tapOpen ∧ t.tck.tapHistory = s.tck.tapHistory ∧ t.dlu = s.dlu) ∧
  t.tck.beat = s.tck.beat ∧ t.tck.meter = s.tck.meter ∧
  t.tbm = s.tbm ∧ (s.NoChangeWaits → t.sce = s.sce ∧ t.pmn = s.pmn) ∧ t.tun = s.tun ∧ t.sli = s.sli ∧
  t.cch.fifo = s.cch.fifo ∧
  let timed : State := if q.tempo = 0 then s else s.takePeriod period
  let switched : State × Code :=
    match q.scene with
    | none => (timed, .ok)
    | some n => timed.baseSwitch
      { target := some n, source := .cue, quantize := if q.quant then .bar else .none
        override := none, gate := none, owner := none, tag := 0 }
  let unpinned : State := { switched.1 with
    stg := { switched.1.stg with
      slots := vmap (fun x => { x with cuePin := false }) switched.1.stg.slots } }
  let next := if q.cont = true ∧ i + 1 ≤ 1023 then (s.tbm.cue (i + 1)).scene else none
  let armed : State × Code :=
    match next with
    | none => (unpinned, .skipped)
    | some n => unpinned.armRequest
      { scene := n, pin := false, cuePin := true, demand := false, origin := .lookAhead, tag := 0 }
  let code : Code :=
    if switched.2 = .notPresent ∨ switched.2 = .busy then switched.2 else .ok
  let look := armed.2 = .ok ∨ armed.2 = .already ∨ armed.2 = .accepted
  t.swu = switched.1.swu ∧ t.stg = armed.1.stg ∧
  (s.NoChangeWaits → s.cch.outbox = [] → t.cch = ({ armed.1 with cch := { armed.1.cch with
    outbox := armed.1.cch.outbox ++ [cueRecord s.csq.tag code 1 0 t.csq.list i q.scene q.length
      (decide look) 0] } } : State).deliver.cch)

/-! ### Invariants -/

/-- Table Memory is in its canonical form: addresses strictly rising, no blank word listed. -/
def State.MemoryCanonical (s : State) : Prop := s.tbm.mem.wf = true

/-- R162: at most 4 entries, at most one of them of reason TUNER. -/
def State.StackLegal (s : State) : Prop :=
  s.swu.stack.length ≤ 4 ∧ (s.swu.stack.filter fun e => e.reason == .tuner).length ≤ 1

/-- R29: the command FIFO holds at most 128 words. -/
def State.FifoLegal (s : State) : Prop := s.cch.fill ≤ 128

/-- R123: no scene in two slots, at most one slot LIVE and at most one FADING, and a FADING slot only
while a crossfade is in flight. -/
structure State.SlotsLegal (s : State) : Prop where
  oneSlotPerScene : ∀ i j n, (s.stg.slots.get i).scene = some n →
    (s.stg.slots.get j).scene = some n → i = j
  oneLive : ∀ i j, (s.stg.slots.get i).state = .live → (s.stg.slots.get j).state = .live → i = j
  oneFading : ∀ i j, (s.stg.slots.get i).state = .fading →
    (s.stg.slots.get j).state = .fading → i = j
  fadingInFlight : ∀ i, (s.stg.slots.get i).state = .fading → s.swu.crossfade.isSome = true

/-- The ranges 9.1 gives the fields of the tempo clock. -/
structure Tck.Legal (t : Tck) : Prop where
  period  : 12000 ≤ t.period ∧ t.period ≤ 144000
  phase   : t.phase < t.period
  beat    : 1 ≤ t.beat ∧ t.beat ≤ t.meter
  meter   : t.meter ≤ 16
  history : t.tapHistory.length ≤ 4 ∧ ∀ n ∈ t.tapHistory, 12000 ≤ n ∧ n ≤ 144000
  count   : t.tapCount ≤ 144001
  levels  : t.accentLevel ≤ 32768 ∧ t.normalLevel ≤ 32768
  burst   : t.burstPos ≤ 480

/-- The mute gain, the relock fade-in gain, the elapsed count of a crossfade, the fill of every delay
line and the gate limit stay in the ranges of R83, R84, R141, R108 and R62, and a line holds a next time
only behind a tap fade in flight (R120, R121). -/
structure State.InRange (s : State) : Prop where
  mute    : s.sce.mute ≤ 32768
  fade    : s.sce.fade ≤ 32768
  elapsed : ∀ x, s.swu.crossfade = some x → x.elapsed ≤ x.length
  fills   : ∀ l, (s.dlu.lines.get l).mem.length ≤ 98304
  held    : ∀ l, (s.dlu.lines.get l).held ≠ none →
    (s.dlu.lines.get l).target ≠ (s.dlu.lines.get l).current
  limit   : s.tbm.gateLimit ≤ 128

end Sys2Proof.Machine
end

