-- ==== Sys2Proof/Certificates/Slice0/Obligations.lean ====
section
/-! DEFINITION. The statements for the provers, in the order of OBLIGATIONS.json. -/

open Sys2Proof Sys2Proof.Machine

/-! ### Messages of the channel -/

/-- R34: a damaged message is answered OVERRUN and a message whose code is not in the command summary
BAD_COMMAND, and neither has any other effect. -/
def Obligations.DamagedAndUnknownAnswered : Prop :=
  ∀ (m : Message) (rest : List Message) (s : State),
    (Takes .damaged m rest s →
      exec .damagedMessage s = .next (s.answered m rest (ack .overrun))) ∧
    (Takes .unknown m rest s →
      exec .unknownCommand s = .next (s.answered m rest (ack .badCommand)))

/-- R42: PING answers DATA with A0 and the frame counter modulo 65,536, and changes nothing else. -/
def Obligations.PingAnswers : Prop :=
  ∀ (m : Message) (rest : List Message) (s : State), Takes .ping m rest s →
    exec .ping s = .next (s.answered m rest
      (if m.body = [] then data [payload (m.a0 <<< 16 + s.sli.counter.toNat % 65536)]
       else ack .badLength))

/-- R43, R91: STATUS answers its eight words and clears CLIP and DROPPED, and with A0 = 1 zeroes the six
counters too; METERS answers its fourteen words and sets the two peaks, the mix clip counter and the
clip counters of the LIVE copy to 0. Nothing else changes. That an A0 above 1 is answered by the row
STATUS is the model's choice (log 10). -/
def Obligations.StatusAndMetersReadAndClear : Prop :=
  (∀ (m : Message) (rest : List Message) (s : State),
     let t := s.answered m rest (data (s.statusData rest))
     let sticky := { t with sce := { s.sce with clip := false }, cch := { t.cch with dropped := false } }
     (Takes .status m rest s → exec .status s = .next
       (if m.body ≠ [] then s.answered m rest (ack .badLength)
        else if m.a0 ≠ 0 then s.answered m rest (ack .range)
        else sticky)) ∧
     (Takes .statusZero m rest s → exec .statusZeroCounters s = .next
       (if m.body ≠ [] then s.answered m rest (ack .badLength)
        else { sticky with cch := { sticky.cch with counters := Counters.zero } }))) ∧
  (∀ (m : Message) (rest : List Message) (s : State), Takes .meters m rest s →
     exec .meters s = .next
       (if m.body ≠ [] then s.answered m rest (ack .badLength)
        else
         { s.answered m rest (data s.meterData) with
           sce := { s.sce with
             peakL := 0, peakR := 0, mixClips := 0
             live := s.sce.live.map fun c =>
               { c with stages := c.stages.map fun st => { st with clips := 0 } } } }))

/-- R13, R14: a SLOTMAP is checked in the order of R13; an accepted one is held as the waiting map and
answered OK by the ACK that ends the old map, and the map in force is unchanged. -/
def Obligations.SlotmapHeldOrRefused : Prop :=
  ∀ (m : Message) (rest : List Message) (s : State), Takes .slotmap m rest s →
    (m.body.length ≠ 5 → exec .slotmap s = .next (s.answered m rest (ack .badLength))) ∧
    ∀ w1 w2 w3 w4 w5, m.body = [w1, w2, w3, w4, w5] →
      let map := slotMapOf w1 w2 w3 w4 w5
      exec .slotmap s = .next
        (if (∀ n ∈ slotMapFields w1 w2 w3 w4 w5, n ≤ 7 ∨ n = 255)
            ∧ map.control ≠ none ∧ map.reply ≠ none
            ∧ noSlotTwice map.inbound = true ∧ noSlotTwice map.outboundSlots = true then
          { s.answered m rest { kind := .ack, code := .ok, body := [], ends := true } with
            sli := { s.sli with waiting := some map, ackSent := false } }
         else s.answered m rest (ack .range))

/-- R44 and the reset tables R45, R66, R93, R122, R147, R156, R170, R182, R193, R202: RESTART empties
the reply queue, resets every block by its scope and queues its ACK; the assembler, the FIFO behind the
message, the link and, with RESTART ENGINE, the tables are kept. That list and tag of the sequencer
and the count of an open tap series are kept (log 22), that an A0 above 1 is answered by the row
RESTART_ENGINE (log 10), and that under FOLLOW the window restarts only if a scene was live (log 32)
are the model's choices. -/
def Obligations.RestartResetsByScope : Prop :=
  ∀ (m : Message) (rest : List Message) (s : State),
    let done := (ack .ok).record m.tag
    let t := s.answered m rest (ack .ok)
    let cch : Cch :=
      { t.cch with class1 := [], class2 := [done], class3 := [], class4 := [], flight := none }
    let csq : Csq :=
      { state := .idle, waiting := none, list := s.csq.list, tag := s.csq.tag, current := none
        lookAhead := none, remaining := 0, barsLeft := 0, heldOp := none, due := none }
    let sce : Sce :=
      { live := none, fading := none, mute := 32768, fade := s.sce.fade, peakL := 0, peakR := 0
        mixClips := 0, clip := s.sce.clip }
    let switches := vmap (fun f => { f with deferred := false, hold := 0 }) s.pmn.switches
    (Takes .restartEngine m rest s → exec .restartEngine s = .next
      (if m.body ≠ [] then s.answered m rest (ack .badLength)
       else if m.a0 ≠ 0 then s.answered m rest (ack .range)
       else
        { t with
          cch := cch, stg := Stg.reset, swu := Swu.reset, sce := sce
          dlu := { s.dlu with lines := Vector.replicate 4 Line.free }
          pmn := { s.pmn with switches := switches }
          tck := { s.tck with tapOpen := false, tapHistory := [], burst := none, burstPos := 480 }
          csq := csq
          tun :=
            match s.tun.mode with
            | .off => { s.tun.restartWindow with pacing := 0, pacingDue := false }
            | .background =>
              if s.liveScene ≠ none ∧ s.tun.source = .follow then s.tun.restartWindow
              else s.tun })) ∧
    (Takes .restartAll m rest s → exec .restartAll s = .next
      (if m.body ≠ [] then s.answered m rest (ack .badLength)
       else
        { t with
          cch := { cch with counters := Counters.zero, dropped := false }
          tbm := Tbm.blank, stg := Stg.reset, swu := Swu.reset
          sce := { sce with clip := false }
          dlu := Dlu.default
          pmn := { s.pmn with switches := switches, debounce := 15, reporting := false }
          tck := { Tck.reset with tapCount := s.tck.tapCount }
          csq := csq, tun := Tun.reset }))

/-! ### Tables -/

/-- R50, R51, R52, R53, R58, R63, R64: LOAD is refused in the order of its checks; one that passes writes
its words at their offsets and clears the VALID flag of the entry. No other word of Table Memory changes, no
other VALID flag, and nothing outside the staged copies it withdraws; with none to withdraw, nothing but the
table. The stale copies are withdrawn in slot-number order, each with its reports behind the reply. A GATE,
FOOTMAP, EXPMAP or CUE entry as it would stand keeps the ranges of its fields; a field of a gate that its
kind does not read, the quantize of R161 among them, is not checked. The addresses of the words, the place
of the SWITCH report among the ARM reports, and that the quantize is such a field, are the model's own
reading (log 34, log 37, log 39). -/
def Obligations.LoadWritesItsWords : Prop :=
  (∀ (m : Message) (rest : List Message) (s : State), Takes .load m rest s →
    ∃ t, exec .load s = .next t ∧
      (m.body.length < 2 ∨ 61 < m.body.length → t = s.answered m rest (ack .badLength)) ∧
      ∀ w ws, m.body = w :: ws → ws ≠ [] → ws.length ≤ 60 →
        (writableKind m.a0 = none → t = s.answered m rest (ack .range)) ∧
        ∀ k, writableKind m.a0 = some k →
          let idx := entryIndex w
          let off := entryOffset w
          let fits := idx < k.entries ∧ off + ws.length ≤ k.words ∧
            entryInRange k (s.tbm.afterWrite k idx off ws) = true
          (¬ fits → t = s.answered m rest (ack .range)) ∧
          (fits → s.inUse k idx = true → t = s.answered m rest (ack .inUse)) ∧
          (fits → s.inUse k idx = false →
            (s.MemoryCanonical →
              (∀ i, i < ws.length → t.tbm.mem.read (entryAddr k idx off + i) = ws.getD i 0) ∧
              (∀ a, a < entryAddr k idx off ∨ entryAddr k idx off + ws.length ≤ a →
                t.tbm.mem.read a = s.tbm.mem.read a)) ∧
            t.tbm.valid k idx = false ∧
            (∀ k' j, k' ≠ k ∨ j ≠ idx → t.tbm.valid k' j = s.tbm.valid k' j) ∧
            t.tbm.gateLimit = s.tbm.gateLimit ∧ t.swu.stack = s.swu.stack ∧
            t.swu.crossfade = s.swu.crossfade ∧ t.cch.fifo = rest ∧ t.sli = s.sli ∧
            t.sce = s.sce ∧ t.dlu = s.dlu ∧ t.pmn = s.pmn ∧ t.tck = s.tck ∧ t.csq = s.csq ∧
            t.tun = s.tun ∧
            ((∀ i, s.tbm.makesStale k idx (s.stg.slots.get i) = false) →
              t = { s.answered m rest (ack .ok) with tbm := t.tbm }) ∧
            (s.SlotsLegal →
              t = s.withdrawingStale k idx { s.answered m rest (ack .ok) with tbm := t.tbm }))) ∧
  ∀ word : Nat → Word24,
    let kind := bits 18 16 (word 0)
    let a := bits 23 16 (word 1)
    (entryInRange .gate word = true ↔
      1 ≤ bits 13 12 (word 0) ∧ bits 2 0 (word 0) ≤ 5 ∧
      (kind = 0 ∨ kind = 1 → bits 9 8 (word 0) ≤ 2 ∧ (a ≤ 127 ∨ a = 255)) ∧
      (kind = 4 → 1 ≤ a ∧ a ≤ 10) ∧ (kind = 5 → a ≤ 15 ∧ bits 15 8 (word 1) ≤ 4) ∧
      (kind = 6 → a ≤ 5)) ∧
    (entryInRange .footmap word = true ↔ 1 ≤ bits 5 0 (word 1) ∧ bits 5 0 (word 1) ≤ 40) ∧
    (entryInRange .expmap word = true ↔
      (bits 17 16 (word 0) = 1 ∨ bits 17 16 (word 0) = 2) ∧
      1 ≤ bits 11 8 (word 0) ∧ bits 11 8 (word 0) ≤ 10 ∧ bits 4 0 (word 0) ≤ 25) ∧
    (entryInRange .cue word = true ↔
      (bits 23 16 (word 0) ≤ 127 ∨ bits 23 16 (word 0) = 255) ∧
      bits 11 0 (word 1) ≤ bits 23 12 (word 1) ∧
      (bits 15 0 (word 2) = 0 ∨ (2000 ≤ bits 15 0 (word 2) ∧ bits 15 0 (word 2) ≤ 24000))) ∧
    ∀ k, k = .scene ∨ k = .shape ∨ k = .ir ∨ k = .cuedir → entryInRange k word = true

/-- R59, R56, R57: READ answers the words of the entry or view from the offset on, as they stand, and
changes nothing. The views show the slot, the line context and the return stack by the fields of their
words, and every other bit of a view word is 0. -/
def Obligations.ReadReturnsTheWords : Prop :=
  ∀ (m : Message) (rest : List Message) (s : State), Takes .read m rest s →
    let slotWord : StgSlot → Word24 := fun t =>
      let state := match t.state with
        | .empty => 0 | .queued => 1 | .preparing => 2 | .ready => 3 | .live => 4 | .fading => 5
      payload (state * 2 ^ 21 + byteOf t.scene * 2 ^ 8 + (if t.pinned then 2 ^ 2 else 0)
        + (if t.cuePin then 2 else 0) + (if t.demanded then 1 else 0))
    let lineWords : Line → List Word24 := fun x =>
      let state := match x.state with | .free => 0 | .live => 1 | .tail => 2
      [payload (state * 2 ^ 22 + byteOf x.owner1 * 2 ^ 8 + byteOf x.owner2),
       payload x.current, payload x.target, payload (x.held.getD 0), payload x.position,
       payload x.feedback, payload x.wet, payload x.pan, if x.tail then 1 else 0,
       payload x.mem.length, payload x.quiet, payload x.age]
    let entryWord : Option StackEntry → Word24 := fun e =>
      match e with
      | none => 0xFF00FF
      | some e =>
        let reason := match e.reason with | .momentary => 1 | .tuner => 2
        payload (byteOf e.saved * 2 ^ 16 + reason * 2 ^ 8 + byteOf e.owner)
    let stack := s.swu.stack
    let stackView : List Word24 :=
      [payload stack.length, entryWord stack[0]?, entryWord stack[1]?, entryWord stack[2]?,
       entryWord stack[3]?]
    (m.body.length ≠ 2 → exec .read s = .next (s.answered m rest (ack .badLength))) ∧
    ∀ w n, m.body = [w, n] →
      let count := readCount n
      let idx := entryIndex w
      let off := entryOffset w
      (kindOf m.a0 = none → exec .read s = .next (s.answered m rest (ack .range))) ∧
      ∀ k, kindOf m.a0 = some k →
        let fits := idx < k.entries ∧ count ≠ 0 ∧ count ≤ 60 ∧ off + count ≤ k.words
        (¬ fits → exec .read s = .next (s.answered m rest (ack .range))) ∧
        (fits → k.isView = false → exec .read s = .next (s.answered m rest
          (data ((List.range count).map fun i => s.tbm.word k idx (off + i))))) ∧
        (fits → k = .stackView → exec .read s = .next (s.answered m rest
          (data ((stackView.drop off).take count)))) ∧
        ∀ i : Fin 4, i.val = idx →
          (fits → k = .slotView → exec .read s = .next (s.answered m rest
            (data [slotWord (s.stg.slots.get i)]))) ∧
          (fits → k = .lineView → exec .read s = .next (s.answered m rest
            (data (((lineWords (s.dlu.lines.get i)).drop off).take count))))

/-- R60, R63, R64: ERASE is refused in the order of its checks; one that passes clears VALID, or the
flags of the entry, or makes a cue record blank. Where it withdraws no staged copy, nothing but the table
changes; the stale copies are withdrawn in slot-number order, each with its reports behind the reply.
The bits of a GATE, EXPMAP, FOOTMAP or CUEDIR word that R60 does not name are kept (log 13); the three words
of a CUE record are written whole, with 0 in the bits that no field of its blank value holds (log 36). Both
are the model's choices, and so are the addresses of the words (log 34) and the place of the SWITCH report
among the ARM reports (log 37). -/
def Obligations.EraseByKind : Prop :=
  ∀ (m : Message) (rest : List Message) (s : State), Takes .erase m rest s →
    ∃ t, exec .erase s = .next t ∧
      (m.body.length ≠ 1 → t = s.answered m rest (ack .badLength)) ∧
      ∀ w, m.body = [w] →
        (writableKind m.a0 = none → t = s.answered m rest (ack .range)) ∧
        ∀ k, writableKind m.a0 = some k →
          let idx := entryIndex w
          (k.entries ≤ idx → t = s.answered m rest (ack .range)) ∧
          (idx < k.entries → s.inUse k idx = true → t = s.answered m rest (ack .inUse)) ∧
          (idx < k.entries → s.inUse k idx = false →
            t.tbm = s.tbm.erase k idx ∧
            (k.hasValid = true → t.tbm.mem = s.tbm.mem ∧ t.tbm.valid k idx = false) ∧
            (k = .gate ∨ k = .expmap ∨ k = .cuedir →
              t.tbm.mem = s.tbm.mem.write (entryAddr k idx 0)
                ((s.tbm.word k idx 0) &&& 0x7FFFFF#24)) ∧
            (k = .footmap → t.tbm.mem = s.tbm.mem.write (entryAddr k idx 0)
                ((s.tbm.word k idx 0) &&& 0x7F7F7F#24)) ∧
            (k = .cue → t.tbm.mem = ((s.tbm.mem.write (entryAddr k idx 0) (255#24 <<< 16)).write
                (entryAddr k idx 0 + 1) 0#24).write (entryAddr k idx 0 + 2) 0#24) ∧
            t.swu.stack = s.swu.stack ∧ t.sce = s.sce ∧ t.dlu = s.dlu ∧ t.csq = s.csq ∧
            ((∀ i, s.tbm.makesStale k idx (s.stg.slots.get i) = false) →
              t = { s.answered m rest (ack .ok) with tbm := s.tbm.erase k idx }) ∧
            (s.SlotsLegal → t = s.withdrawingStale k idx
              { s.answered m rest (ack .ok) with tbm := s.tbm.erase k idx }))

/-- R47, R48, R49, R61: COMMIT makes a SHAPE or IR entry VALID, and a SCENE entry that passes the checks; it
answers the code of the first check that fails and then changes nothing. A scene that passes has the
structure of R47, costs at most 512 units, has at most one CAB and one LOOP stage, no line used twice and
one of the eight tap counts. A SCENE entry without the structure is INVALID, one with it that costs more
than 512 units is COST, one that keeps to the cost but not to the other limits is INVALID, and any other is
OK; its record holds the words of the entry. -/
def Obligations.CommitMakesValid : Prop :=
  (∀ (m : Message) (rest : List Message) (s : State), Takes .commit m rest s →
    (m.body.length ≠ 1 → exec .commit s = .next (s.answered m rest (ack .badLength))) ∧
    ∀ w, m.body = [w] →
      (2 < m.a0 → exec .commit s = .next (s.answered m rest (ack .range))) ∧
      ∀ k, kindOf m.a0 = some k → m.a0 ≤ 2 →
        let idx := entryIndex w
        (k.entries ≤ idx → exec .commit s = .next (s.answered m rest (ack .range))) ∧
        (idx < k.entries → s.tbm.valid k idx = true →
          exec .commit s = .next (s.answered m rest (ack .ok))) ∧
        (idx < k.entries → s.tbm.valid k idx = false → k ≠ .scene →
          exec .commit s = .next
            { s.answered m rest (ack .ok) with tbm := s.tbm.setValid k idx true }) ∧
        (idx < k.entries → s.tbm.valid k idx = false → k = .scene →
          let code := validateScene (s.tbm.word .scene idx)
          exec .commit s = .next
            (if code = .ok then
              { s.answered m rest (ack .ok) with tbm := s.tbm.setValid .scene idx true }
             else s.answered m rest (ack code)))) ∧
  (∀ word : Nat → Word24, validateScene word = .ok →
    ∃ r, parseScene word = some r ∧ r.inputSelect.toNat ≤ 2 ∧ r.fadeCode.toNat ≤ 7 ∧
      1 ≤ r.stages.length ∧ r.stages.length ≤ 10 ∧
      (r.stages.map StageRecord.cost).sum ≤ 512 ∧
      (r.stages.filter fun st => st.kind == .cab).length ≤ 1 ∧
      (r.stages.filter fun st => st.kind == .loop).length ≤ 1 ∧
      (r.stages.filterMap fun st => lineRef st.kind st.params).Nodup ∧
      ∀ st ∈ r.stages, st.params.length = st.kind.count ∧
        (st.kind = .cab → (st.params.getD 1 0).toNat ∈ [128, 256, 384, 512, 640, 768, 896, 1024])) ∧
  ∀ word : Nat → Word24,
    let count := (word 1).toNat
    let code : Nat → Nat := fun k => bits 23 16 (word (stagePlace word k))
    let param : Nat → Nat → Nat := fun k i => (word (stagePlace word k + 1 + i)).toNat
    let words : Nat → Nat := fun c => [0, 5, 5, 3, 26, 3, 5, 10, 3, 1].getD c 0
    let units : Nat → Nat := fun c => [0, 8, 10, 20, 60, 0, 24, 6, 4, 2].getD c 0
    let cost : Nat → Nat := fun k => if code k = 5 then param k 1 / 4 else units (code k)
    let total := ((List.range count).map cost).sum
    let structured := (word 0).toNat ≤ 2 ∧ (word 2).toNat ≤ 7 ∧ 1 ≤ count ∧ count ≤ 10 ∧
      ∀ k, k < count → 1 ≤ code k ∧ code k ≤ 9 ∧
        bits 7 0 (word (stagePlace word k)) = words (code k) ∧
        stagePlace word k + words (code k) ≤ 273
    let limited := (∀ j k, j < k → k < count →
        (code j = 5 → code k ≠ 5) ∧ (code j = 8 → code k ≠ 8) ∧
        (code j = 7 → code k = 7 → min 3 (param j 0) ≠ min 3 (param k 0))) ∧
      ∀ k, k < count → code k = 5 → param k 1 ∈ [128, 256, 384, 512, 640, 768, 896, 1024]
    (¬ structured → validateScene word = .invalid) ∧
    (structured →
      (512 < total → validateScene word = .cost) ∧
      (total ≤ 512 → ¬ limited → validateScene word = .invalid) ∧
      (total ≤ 512 → limited → validateScene word = .ok) ∧
      ∃ r, parseScene word = some r ∧ r.inputSelect = word 0 ∧ r.fadeCode = word 2 ∧
        r.level = word 3 ∧ r.stages.length = count ∧
        ∀ k st, r.stages[k]? = some st →
          st.kind.code = code k ∧ st.enabled = bit 8 (word (stagePlace word k)) ∧
          st.params = (List.range (words (code k))).map fun i => word (stagePlace word k + 1 + i))

/-- R90, R63, R64: STORE writes the LIVE copy's record into a SCENE entry and makes it VALID. Into the
live scene's own entry it also renews the prepared image and clears the edited flag; into another
entry it leaves the copy as it is, and withdraws the staged copies of that entry with their reports
behind the reply. Only the words of that entry change. The addresses of the words, the bits of a stage
header that no field holds and the place of the SWITCH report among the ARM reports are the model's own
(log 34, log 38, log 37). -/
def Obligations.StoreWritesTheLiveCopy : Prop :=
  ∀ (m : Message) (rest : List Message) (s : State), Takes .store m rest s →
    ∃ t, exec .store s = .next t ∧
      (m.body ≠ [] → t = s.answered m rest (ack .badLength)) ∧
      (m.body = [] → 127 < m.a0 → t = s.answered m rest (ack .range)) ∧
      (m.body = [] → m.a0 ≤ 127 → s.sce.live = none → t = s.answered m rest (ack .notPresent)) ∧
      ∀ c n, m.body = [] → n.val = m.a0 → s.sce.live = some c →
        let own := s.liveScene = some n
        let written := t.tbm.validScene.get n = true ∧
          (∀ k j, k ≠ .scene ∨ j ≠ n.val → t.tbm.valid k j = s.tbm.valid k j) ∧
          t.tbm.gateLimit = s.tbm.gateLimit ∧
          (s.MemoryCanonical →
            (∀ i, i < 274 → t.tbm.word .scene n i = c.record.words.getD i 0) ∧
            (∀ a, a < entryAddr .scene n 0 ∨ entryAddr .scene n 274 ≤ a →
              t.tbm.mem.read a = s.tbm.mem.read a))
        (¬ own → s.inUse .scene n = true → t = s.answered m rest (ack .inUse)) ∧
        (own → written ∧ t = { s.answered m rest (ack .ok) with
            tbm := t.tbm
            sce := { s.sce with live := some { c with edited := false } }
            stg :=
              match s.stg.liveSlot with
              | none => s.stg
              | some i =>
                let slot := s.stg.slots.get i
                let renewed :=
                  { slot with image := slot.image.map fun im => { im with record := c.record } }
                { s.stg with slots := upd s.stg.slots i renewed } }) ∧
        (¬ own → s.inUse .scene n = false → written ∧ t.sce = s.sce ∧ t.dlu = s.dlu ∧
          t.swu.stack = s.swu.stack ∧ t.swu.crossfade = s.swu.crossfade ∧ t.csq = s.csq ∧
          ((∀ i, s.tbm.makesStale .scene n (s.stg.slots.get i) = false) →
            t = { s.answered m rest (ack .ok) with tbm := t.tbm }) ∧
          (s.SlotsLegal →
            t = s.withdrawingStale .scene n { s.answered m rest (ack .ok) with tbm := t.tbm }))

/-! ### Staging -/

/-- R124, R125, R126: the slot chosen for a new scene is the lowest-numbered EMPTY one; with none EMPTY, the
slot nearest the back of the ready order whose three flags are clear; with none such, no slot. ARM of a
scene that is not VALID gives NOT_PRESENT; of a scene in a slot applies the pin there; of any other
scene takes the chosen slot, which enters QUEUED at the tail of the arm queue, or gives BUSY. Nothing
else changes. -/
def Obligations.ArmRequestTakesASlot : Prop :=
  (∀ g : Stg,
     let empty : SlotNo → Prop := fun i => (g.slots.get i).state = .empty
     let free : SlotNo → Prop := fun i =>
       (g.slots.get i).pinned = false ∧ (g.slots.get i).cuePin = false
         ∧ (g.slots.get i).demanded = false
     (∀ i, g.choose = some i →
       (empty i ∧ ∀ j, j < i → ¬ empty j) ∨
       ((∀ j, ¬ empty j) ∧ free i ∧
         ∃ front back, g.readyOrder = front ++ i :: back ∧ ∀ j ∈ back, ¬ free j)) ∧
     (g.choose = none → (∀ j, ¬ empty j) ∧ ∀ j ∈ g.readyOrder, ¬ free j)) ∧
  (∀ (m : Message) (rest : List Message) (s : State), Takes .arm m rest s →
     (m.body ≠ [] → exec .arm s = .next (s.answered m rest (ack .badLength))) ∧
     ∀ n : SceneNo, m.body = [] → n.val = m.a0 % 128 →
       let pin := decide (m.a0 / 128 % 2 = 1)
       (s.tbm.sceneValid n = false →
         exec .arm s = .next (s.answered m rest (ack .notPresent))) ∧
       (s.tbm.sceneValid n = true → ∀ i, s.stg.holding n = some i →
         let t := s.stg.slots.get i
         exec .arm s = .next
           { s.answered m rest
               (ack (if t.state = .live ∨ t.state = .fading then .already else .ok)) with
             stg := { s.stg with slots := upd s.stg.slots i { t with pinned := t.pinned || pin } } }) ∧
       (s.tbm.sceneValid n = true → s.stg.holding n = none → s.stg.choose = none →
         exec .arm s = .next (s.answered m rest (ack .busy))) ∧
       (s.tbm.sceneValid n = true → s.stg.holding n = none → ∀ i, s.stg.choose = some i →
         exec .arm s = .next
           { s.answered m rest (ack .accepted) with
             stg :=
               { slots := upd s.stg.slots i
                   { state := .queued, scene := some n, pinned := pin, cuePin := false
                     demanded := false, remaining := 0, origin := .command, tag := m.tag
                     image := none, fresh := true }
                 armQueue := s.stg.armQueue.filter (· ≠ i) ++ [i]
                 readyOrder := s.stg.readyOrder.filter (· ≠ i)
                 loaderWaits := s.stg.loaderWaits } }))

/-- R132, R131, R138: DISARM empties the slot it names, which leaves the arm queue and the ready order, and
reports INVALIDATED about a slot that was QUEUED or PREPARING and about the pending switch that waited on
it; a LIVE or FADING slot is refused. Where it aborts a preparation, the loader waits for a later block
boundary. -/
def Obligations.DisarmEmptiesTheSlot : Prop :=
  ∀ (m : Message) (rest : List Message) (s : State), Takes .disarm m rest s →
    (m.body.length ≠ 1 → exec .disarm s = .next (s.answered m rest (ack .badLength))) ∧
    ∀ w, m.body = [w] →
      let mode := bits 23 16 w
      let number := bits 7 0 w
      (2 ≤ mode ∨ (mode = 0 ∧ 128 ≤ number) ∨ (mode = 1 ∧ 4 ≤ number) →
        exec .disarm s = .next (s.answered m rest (ack .range))) ∧
      (∀ n : SceneNo, mode = 0 → n.val = number → s.stg.holding n = none →
        exec .disarm s = .next (s.answered m rest (ack .notPresent))) ∧
      ∀ i : SlotNo, (∃ n : SceneNo, mode = 0 ∧ n.val = number ∧ s.stg.holding n = some i) ∨
          (mode = 1 ∧ i.val = number) →
        let t := s.stg.slots.get i
        let emptied : State := { s.answered m rest (ack .ok) with
          stg :=
            { slots := upd s.stg.slots i StgSlot.vacant
              armQueue := s.stg.armQueue.filter (· ≠ i)
              readyOrder := s.stg.readyOrder.filter (· ≠ i)
              loaderWaits := s.stg.loaderWaits || t.state == .preparing } }
        let reports :=
          if t.state = .queued ∨ t.state = .preparing then [armRecord i t .invalidated] else []
        (t.state = .empty → exec .disarm s = .next (s.answered m rest (ack .notPresent))) ∧
        (t.state = .live ∨ t.state = .fading →
          exec .disarm s = .next (s.answered m rest (ack .inUse))) ∧
        (t.state = .queued ∨ t.state = .preparing ∨ t.state = .ready →
          (t.demanded = false → exec .disarm s = .next (emptied.reporting reports)) ∧
          (t.demanded = true → s.SlotsLegal → ∀ p n, s.swu.pending = some p → t.scene = some n →
            p.req.target = some n →
            exec .disarm s = .next (({ emptied with swu := { s.swu with pending := none } } :
              State).reporting
                (reports ++ [switchRecord p.req .invalidated s.destination (some n) false false]))))

/-! ### Switch requests and the return stack -/

/-- R134, R135 cases 1 and 3, R136, R138: SWITCH_SCENE with an empty return stack, in or out of a crossfade.
A pending switch is superseded with its report, and its slot loses the demand. A request for the destination
then gives ALREADY; one for a scene that is no party of a crossfade, or with none in flight for any other
scene, makes the new pending switch, its boundary-passed flag set at once if it is not quantized. A scene
target is armed with a demand, by the slots as the superseded switch leaves them, or the request is refused
with the code of the arm request and no switch is pending. The destination before the request in the from
field is the model's reading (log 12). -/
def Obligations.SwitchSceneMakesThePendingSwitch : Prop :=
  ∀ (m : Message) (rest : List Message) (s : State), Takes .switchScene m rest s →
    let named := m.a0 < 128 ∨ m.a0 = 255
    (2 ≤ m.body.length → exec .switchScene s = .next (s.answered m rest (ack .badLength))) ∧
    (m.body = [] → ¬ named → exec .switchScene s = .next (s.answered m rest (ack .range))) ∧
    (∀ w, m.body = [w] → ¬ named ∨ bits 17 16 w = 3 →
      exec .switchScene s = .next (s.answered m rest (ack .range))) ∧
    ∀ q o, (m.body = [] ∧ q = .none ∧ o = none) ∨
        (∃ w, m.body = [w] ∧ bits 17 16 w ≠ 3 ∧ q = quantizeOf (bits 17 16 w) ∧
          o = overrideOf w) →
      named → s.swu.stack = [] →
      let r : Request :=
        { target := sceneOf m.a0, source := .controller, quantize := q, override := o
          gate := none, owner := none, tag := m.tag }
      let held := s.swu.crossfade.any fun x => x.reversal.isSome
      let destination := if held = true then s.fadingScene else s.liveScene
      let other := if held = true then s.liveScene else s.fadingScene
      let stg : Stg :=
        match s.swu.pending.bind fun p => p.req.target.bind s.stg.holding with
        | none => s.stg
        | some i =>
          let slot := s.stg.slots.get i
          { s.stg with slots := upd s.stg.slots i { slot with demanded := false } }
      let reports := s.swu.pending.toList.map fun p =>
        switchRecord p.req .superseded destination p.req.target false false
      let ended : Code → State := fun c =>
        ({ s.answered m rest (ack c) with
          swu := { s.swu with pending := none }, stg := stg } : State).reporting reports
      let pending : Pending := { req := r, passed := decide (q = .none), fresh := true }
      let waiting : Stg → State := fun g =>
        ({ s.answered m rest (ack .accepted) with
          swu := { s.swu with pending := some pending }, stg := g } : State).reporting reports
      (r.target = destination → exec .switchScene s = .next (ended .already)) ∧
      (r.target ≠ destination → s.swu.crossfade = none ∨ r.target ≠ other →
        (r.target = none → exec .switchScene s = .next (waiting stg)) ∧
        ∀ n, r.target = some n →
          (s.tbm.sceneValid n = false → exec .switchScene s = .next (ended .notPresent)) ∧
          (s.tbm.sceneValid n = true → ∀ i, stg.holding n = some i →
            let slot := stg.slots.get i
            exec .switchScene s = .next (waiting
              { stg with slots := upd stg.slots i { slot with demanded := true } })) ∧
          (s.tbm.sceneValid n = true → stg.holding n = none → stg.choose = none →
            exec .switchScene s = .next (ended .busy)) ∧
          (s.tbm.sceneValid n = true → stg.holding n = none → ∀ i, stg.choose = some i →
            exec .switchScene s = .next (waiting
              { slots := upd stg.slots i
                  { state := .queued, scene := some n, pinned := false, cuePin := false
                    demanded := true, remaining := 0, origin := .request, tag := m.tag
                    image := none, fresh := true }
                armQueue := stg.armQueue.filter (· ≠ i) ++ [i]
                readyOrder := stg.readyOrder.filter (· ≠ i)
                loaderWaits := stg.loaderWaits })))

/-- R135 case 2, R138, R142: during a crossfade, with an empty return stack, a request for the outgoing
scene is held as the reversal request, and a request for the incoming scene withdraws a held one. A pending
switch is superseded in either case, and its slot loses the demand. The from fields of the reports, and the
report about the reversal before that about the pending switch, are the model's choices (log 12). -/
def Obligations.SwitchSceneTurnsACrossfade : Prop :=
  ∀ (m : Message) (rest : List Message) (s : State) (x : Crossfade), Takes .switchScene m rest s →
    ∀ q o, (m.body = [] ∧ q = .none ∧ o = none) ∨
        (∃ w, m.body = [w] ∧ bits 17 16 w ≠ 3 ∧ q = quantizeOf (bits 17 16 w) ∧
          o = overrideOf w) →
    m.a0 < 128 ∨ m.a0 = 255 → s.swu.stack = [] →
    s.swu.crossfade = some x → s.liveScene ≠ s.fadingScene →
    let r : Request :=
      { target := sceneOf m.a0, source := .controller, quantize := q, override := o
        gate := none, owner := none, tag := m.tag }
    let stg : Stg :=
      match s.swu.pending.bind fun p => p.req.target.bind s.stg.holding with
      | none => s.stg
      | some i =>
        let slot := s.stg.slots.get i
        { s.stg with slots := upd s.stg.slots i { slot with demanded := false } }
    let reports : Option SceneNo → List Record := fun destination =>
      s.swu.pending.toList.map fun p =>
        switchRecord p.req .superseded destination p.req.target false false
    let turned : Code → Option Request → State := fun c held =>
      { s.answered m rest (ack c) with
        stg := stg
        swu := { s.swu with
          pending := none
          crossfade := some { x with reversal := held, reversalFresh := held.isSome } } }
    (x.reversal = none → r.target = s.fadingScene →
      exec .switchScene s = .next ((turned .accepted (some r)).reporting (reports s.liveScene))) ∧
    (∀ h, x.reversal = some h → r.target = s.liveScene →
      exec .switchScene s = .next ((turned .already none).reporting
        (switchRecord h .superseded s.fadingScene h.target false false :: reports s.fadingScene)))

/-- R167: a base switch made while the return stack holds entries gives every entry the target as its saved
scene, before the request and whatever becomes of it. The owners and reasons of the entries, the tables, the
engine and the delay lines are left as they are. A base switch of a cue then makes no request; any other
makes its request, and with an empty stack it is the request. -/
def Obligations.BaseSwitchRewritesSavedScenes : Prop :=
  (∀ (m : Message) (rest : List Message) (s : State), Takes .switchScene m rest s →
    m.a0 < 128 ∨ m.a0 = 255 → m.body = [] ∨ (∃ w, m.body = [w] ∧ bits 17 16 w ≠ 3) →
    ∃ t, exec .switchScene s = .next t ∧ t.cch.fifo = rest ∧
      t.swu.stack = s.swu.stack.map (fun e => { e with saved := sceneOf m.a0 }) ∧
      t.tbm = s.tbm ∧ t.sce = s.sce ∧ t.dlu = s.dlu ∧ t.csq = s.csq ∧ t.tck = s.tck ∧
      t.tun = s.tun) ∧
  ∀ (r : Request) (s : State),
    let rewritten : State :=
      { s with swu := { s.swu with
          stack := s.swu.stack.map fun e => { e with saved := r.target } } }
    (s.swu.stack = [] → s.baseSwitch r = s.switchRequest r) ∧
    (s.swu.stack ≠ [] → r.source = .cue → s.baseSwitch r = (rewritten, .ok)) ∧
    (s.swu.stack ≠ [] → r.source ≠ .cue → s.baseSwitch r = rewritten.switchRequest r)

/-- R164, R165: RETURN with an empty stack gives STACK_EMPTY and changes nothing. Otherwise the top
entry is removed; a pending switch to its saved scene is kept, and with none such a switch request to
the saved scene is made, of source CONTROLLER and not quantized, whose result is the answer; a saved scene
that is the destination makes no switch. An entry of reason TUNER ends the engagement: with mode OFF the
measurement stops (R194). -/
def Obligations.ReturnPopsTheTopEntry : Prop :=
  ∀ (m : Message) (rest : List Message) (s : State), Takes .pop m rest s →
    (m.body ≠ [] → exec .returnPop s = .next (s.answered m rest (ack .badLength))) ∧
    (m.body = [] → s.swu.stack = [] →
      exec .returnPop s = .next (s.answered m rest (ack .stackEmpty))) ∧
    ∀ es e, m.body = [] → s.swu.stack = es ++ [e] →
      let tun :=
        if e.reason = .tuner ∧ (∀ e' ∈ es, e'.reason ≠ .tuner) ∧ s.tun.mode = .off then
          { s.tun.restartWindow with pacingDue := false }
        else s.tun
      (∃ t, exec .returnPop s = .next t ∧ t.swu.stack = es ∧ t.cch.fifo = rest ∧ t.tun = tun ∧
        t.tbm = s.tbm ∧ t.sce = s.sce ∧ t.dlu = s.dlu ∧ t.csq = s.csq ∧ t.tck = s.tck) ∧
      (∀ p, s.swu.pending = some p → p.req.target = e.saved →
        exec .returnPop s = .next { s.answered m rest (ack .accepted) with
          swu := { s.swu with stack := es }, tun := tun }) ∧
      ((∀ p, s.swu.pending = some p → p.req.target ≠ e.saved) →
        exec .returnPop s = .next (State.reply m (answer (({ s.removeHead rest with
          swu := { s.swu with stack := es }, tun := tun } : State).switchRequest
            { target := e.saved, source := .controller, quantize := .none, override := none
              gate := none, owner := none, tag := m.tag })))) ∧
      (s.swu.pending = none → s.swu.crossfade = none → e.saved = s.liveScene →
        exec .returnPop s = .next { s.answered m rest (ack .already) with
          swu := { s.swu with stack := es }, tun := tun })

/-- R157, R160, R161, R163, R164, R168, R176, R184, R189: SWITCH_GATE gives LIMIT at or above the gate
limit, NOT_PRESENT for a gate that is not present, and SKIPPED where the condition fails and no else gate is
named, and then changes nothing; level 3 never meets LEVEL. A TUNER gate with no TUNER entry and room on the
stack pushes one without an owner, and the tuner leaves OFF with its window restarted (R194). A dispatch by
any source refuses a gate above its level, and otherwise acts by the kind of the gate, or of its else gate
where the condition fails; an else gate whose own condition fails gives SKIPPED, whatever it names as its
own else gate, which is the model's reading (log 23). A SCENE gate makes a base switch; a MOMENTARY gate
pushes an entry and requests its scene, and takes the entry back if that is refused, but with the foot up it
acts as a SCENE gate; RETURN and a TUNER gate on a TUNER entry on top pop it; a TUNER entry below the top is
removed and its saved scene passes to the entry above; TOGGLE_STAGE, CUE_START, CUE_OP and TAP gates act as
their commands. -/
def Obligations.SwitchGateDispatches : Prop :=
  (∀ (m : Message) (rest : List Message) (s : State), Takes .switchGate m rest s →
    (m.body ≠ [] → exec .switchGate s = .next (s.answered m rest (ack .badLength))) ∧
    (m.body = [] → 128 ≤ m.a0 → exec .switchGate s = .next (s.answered m rest (ack .limit))) ∧
    ∀ g : GateNo, m.body = [] → g.val = m.a0 →
      let gate := s.tbm.gate g
      exec .switchGate s = .next (State.reply m (answer ((s.removeHead rest).dispatch
        { source := .controller, switch := none, down := false, event := 3, tag := m.tag } g))) ∧
      (s.tbm.gateLimit ≤ g → exec .switchGate s = .next (s.answered m rest (ack .limit))) ∧
      (g.val < s.tbm.gateLimit → gate.present = false →
        exec .switchGate s = .next (s.answered m rest (ack .notPresent))) ∧
      (g.val < s.tbm.gateLimit → gate.present = true →
        (s.conditionHolds gate.condition = false →
          (gate.elseGate = none →
            exec .switchGate s = .next (s.answered m rest (ack .skipped))) ∧
          ∀ e, gate.elseGate = some e →
            (s.tbm.gateLimit ≤ e →
              exec .switchGate s = .next (s.answered m rest (ack .limit))) ∧
            (e.val < s.tbm.gateLimit → (s.tbm.gate e).present = false →
              exec .switchGate s = .next (s.answered m rest (ack .notPresent)))) ∧
        (s.conditionHolds gate.condition = true →
          (gate.kind = .pop → s.swu.stack = [] →
            exec .switchGate s = .next (s.answered m rest (ack .stackEmpty))) ∧
          (gate.kind = .momentary ∨ (gate.kind = .tuner ∧ s.engaged = false) →
            4 ≤ s.swu.stack.length →
            exec .switchGate s = .next (s.answered m rest (ack .stackFull))) ∧
          (gate.kind = .tuner → s.engaged = false → s.swu.stack.length < 4 →
            exec .switchGate s = .next { s.answered m rest (ack .ok) with
              swu := { s.swu with
                stack := s.swu.stack ++
                  [{ saved := match s.swu.pending with
                       | some p => p.req.target
                       | none => s.destination
                     reason := .tuner, owner := none }] }
              tun := if s.tun.mode = .off then
                  { s.tun.restartWindow with pacing := 0, pacingDue := false }
                else s.tun })))) ∧
  ∀ (d : Dispatch) (g : GateNo) (s : State),
    let gate := s.tbm.gate g
    (s.tbm.gateLimit ≤ g → s.dispatch d g = (s, .limit)) ∧
    (g.val < s.tbm.gateLimit → gate.present = false → s.dispatch d g = (s, .notPresent)) ∧
    (g.val < s.tbm.gateLimit → gate.present = true →
      (d.source.level < gate.level → s.dispatch d g = (s, .level)) ∧
      (gate.level ≤ d.source.level → s.conditionHolds gate.condition = false →
        (gate.elseGate = none → s.dispatch d g = (s, .skipped)) ∧
        ∀ e, gate.elseGate = some e →
          (s.tbm.gateLimit ≤ e → s.dispatch d g = (s, .limit)) ∧
          (e.val < s.tbm.gateLimit → (s.tbm.gate e).present = false →
            s.dispatch d g = (s, .notPresent)) ∧
          (e.val < s.tbm.gateLimit → (s.tbm.gate e).present = true →
            (d.source.level < (s.tbm.gate e).level → s.dispatch d g = (s, .level)) ∧
            ((s.tbm.gate e).level ≤ d.source.level →
              (s.conditionHolds (s.tbm.gate e).condition = false →
                s.dispatch d g = (s, .skipped)) ∧
              (s.conditionHolds (s.tbm.gate e).condition = true →
                s.dispatch d g = s.dispatch d e)))) ∧
      (gate.level ≤ d.source.level → s.conditionHolds gate.condition = true →
        let request : Option SceneNo → Option GateNo → Option SwitchNo → Quantize → Request :=
          fun target by_ owner q =>
            { target := target, source := d.source, quantize := q, override := none, gate := by_
              owner := owner, tag := d.tag }
        let footUp := d.switch ≠ none ∧ d.down = false
        let pushed : Reason → StackEntry := fun reason =>
          { saved := match s.swu.pending with
              | some p => p.req.target
              | none => s.destination
            reason := reason, owner := if d.down then d.switch else none }
        let removed : List StackEntry → StackEntry → State := fun es e =>
          { s with
            swu := { s.swu with stack := es }
            tun := if e.reason = .tuner ∧ (∀ e' ∈ es, e'.reason ≠ .tuner) ∧ s.tun.mode = .off then
                { s.tun.restartWindow with pacingDue := false }
              else s.tun }
        (gate.kind = .scene ∨ (gate.kind = .momentary ∧ footUp) → s.dispatch d g =
          s.baseSwitch (request (sceneOf gate.argA) (some g) d.switch gate.quantize)) ∧
        (gate.kind = .momentary → ¬ footUp →
          (4 ≤ s.swu.stack.length → s.dispatch d g = (s, .stackFull)) ∧
          (s.swu.stack.length < 4 →
            let r := ({ s with swu := { s.swu with
              stack := s.swu.stack ++ [pushed .momentary] } } : State).switchRequest
                (request (sceneOf gate.argA) (some g) d.switch .none)
            s.dispatch d g =
              if r.2 = .notPresent ∨ r.2 = .busy then
                ({ r.1 with swu := { r.1.swu with stack := s.swu.stack } }, r.2)
              else r)) ∧
        (gate.kind = .pop → s.swu.stack = [] → s.dispatch d g = (s, .stackEmpty)) ∧
        (∀ es e, s.swu.stack = es ++ [e] →
          gate.kind = .pop ∨ (gate.kind = .tuner ∧ e.reason = .tuner) → s.dispatch d g =
            if s.swu.pending.any (fun p => p.req.target == e.saved) = true then (removed es e, .accepted)
            else (removed es e).switchRequest (request e.saved (some g) none .none)) ∧
        (∀ es e a es', s.swu.stack = es ++ e :: a :: es' → e.reason = .tuner →
          (∀ e' ∈ es ++ a :: es', e'.reason ≠ .tuner) → gate.kind = .tuner → s.dispatch d g =
            (removed (es ++ { a with saved := e.saved } :: es') e, .ok)) ∧
        (gate.kind = .tuner → s.engaged = false →
          (4 ≤ s.swu.stack.length → s.dispatch d g = (s, .stackFull)) ∧
          (s.swu.stack.length < 4 → s.dispatch d g = ({ s with
            swu := { s.swu with stack := s.swu.stack ++ [pushed .tuner] }
            tun := if s.tun.mode = .off then
                { s.tun.restartWindow with pacing := 0, pacingDue := false }
              else s.tun }, .ok))) ∧
        (gate.kind = .toggleStage →
          (s.sce.live = none → s.dispatch d g = (s, .notPresent)) ∧
          ∀ c, s.sce.live = some c →
            (gate.argA = 0 ∨ c.stages.length < gate.argA → s.dispatch d g = (s, .range)) ∧
            ∀ st, 1 ≤ gate.argA → c.stages[gate.argA - 1]? = some st →
              s.dispatch d g = ({ s with sce := { s.sce with live := some { c with
                stages := c.stages.set (gate.argA - 1) { st with enabled := !st.enabled }
                edited := true } } }, .ok)) ∧
        (gate.kind = .cueStart → ∀ l : Fin 16, l.val = gate.argA →
          (s.tbm.cueStart l = none → s.dispatch d g = (s, .notPresent)) ∧
          ∀ start, s.tbm.cueStart l = some start →
            let ended := s.stopList
            s.dispatch d g = ({ ended with csq := { ended.csq with
              waiting := some { list := l, start := start, countIn := gate.argB, fresh := true }
              tag := d.tag } }, .accepted)) ∧
        (gate.kind = .cueOp →
          let running := s.csq.state = .running ∨ s.csq.state = .vamping ∨ s.csq.state = .held
          let moved : CueState → State × Code := fun x =>
            ({ s with csq := { s.csq with state := x } }, .ok)
          let held : HeldOp → State × Code := fun h =>
            if ¬ running then (s, .skipped)
            else if s.csq.heldOp = some h then (s, .already)
            else ({ s with csq := { s.csq with heldOp := some h } }, .accepted)
          (gate.argA = 0 → s.dispatch d g = held .advance) ∧
          (gate.argA = 1 → s.dispatch d g = held .skip) ∧
          (gate.argA = 2 → s.dispatch d g =
            if s.csq.state = .running then moved .vamping else (s, .skipped)) ∧
          (gate.argA = 3 → s.dispatch d g =
            if s.csq.state = .running ∨ s.csq.state = .vamping then moved .held
            else (s, .skipped)) ∧
          (gate.argA = 4 → s.dispatch d g =
            if s.csq.state = .vamping ∨ s.csq.state = .held then moved .running
            else (s, .skipped)) ∧
          (gate.argA = 5 → s.dispatch d g =
            if s.csq.state = .idle ∧ s.csq.waiting = none then (s, .skipped)
            else (s.stopList, .ok))) ∧
        (gate.kind = .tap →
          let tapped : List Nat → State := fun history =>
            { s with tck := { s.tck with tapOpen := true, tapCount := 0, tapHistory := history } }
          (s.tck.tapOpen = false → s.dispatch d g = (tapped [], .ok)) ∧
          (s.tck.tapOpen = true → s.tck.tapCount < 12000 → s.dispatch d g = (s, .skipped)) ∧
          (s.tck.tapOpen = true → 144000 < s.tck.tapCount → s.dispatch d g = (tapped [], .ok)) ∧
          (s.tck.tapOpen = true → 12000 ≤ s.tck.tapCount → s.tck.tapCount ≤ 144000 →
            s.dispatch d g = ((tapped
              ((s.tck.tapHistory ++ [s.tck.tapCount]).reverse.take 4).reverse).tapPeriod
                d.source d.tag, .ok)))))

/-! ### Engine, delay line, pedal, clock, cue and tuner settings -/

/-- R72, R86, R87, R89: SET_PARAM clamps the value to the parameter's range, makes it the set value and
starts the change of R85 toward it; TOGGLE_STAGE reverses the enabled flag of its stage. Both act on the
LIVE copy, mark it edited and change nothing else; each is refused by its checks in their order. The range
and the way of taking effect of every parameter are those of R72; the coefficients, whose range is signed,
are read as two's-complement numbers and every other value as unsigned. That a new value replaces one that
still waits, also right before the boundary that would have taken it, is the model's reading (log 44). -/
def Obligations.StageEditsActOnTheLiveCopy : Prop :=
  (∀ (m : Message) (rest : List Message) (s : State),
    (Takes .setParam m rest s →
      (m.body.length ≠ 2 → exec .setParam s = .next (s.answered m rest (ack .badLength))) ∧
      ∀ w1 w2, m.body = [w1, w2] →
        let i := bits 4 0 w1
        (s.sce.live = none → exec .setParam s = .next (s.answered m rest (ack .notPresent))) ∧
        ∀ c, s.sce.live = some c →
          (m.a0 = 0 ∨ c.stages.length < m.a0 →
            exec .setParam s = .next (s.answered m rest (ack .range))) ∧
          ∀ st, 1 ≤ m.a0 → c.stages[m.a0 - 1]? = some st →
            (st.kind.count ≤ i ∨ paramClass st.kind i = .structural →
              exec .setParam s = .next (s.answered m rest (ack .range))) ∧
            (i < st.kind.count → paramClass st.kind i ≠ .structural →
              let v := paramClamp st.kind i (paramValue st.kind i w2)
              let edit : Param → Param := fun p =>
                { set := BitVec.ofInt 24 v, run := p.run
                  change := some (if paramClass st.kind i = .ramp then .ramp p.run v 0
                                  else .boundary v)
                  fresh := true }
              exec .setParam s = .next { s.answered m rest (ack .ok) with
                sce := { s.sce with live := some { c with
                  stages := c.stages.set (m.a0 - 1)
                    { st with params := st.params.modify i edit }
                  edited := true } } })) ∧
    (Takes .toggleStage m rest s →
      (m.body ≠ [] → exec .toggleStage s = .next (s.answered m rest (ack .badLength))) ∧
      (m.body = [] → s.sce.live = none →
        exec .toggleStage s = .next (s.answered m rest (ack .notPresent))) ∧
      ∀ c, m.body = [] → s.sce.live = some c →
        (m.a0 = 0 ∨ c.stages.length < m.a0 →
          exec .toggleStage s = .next (s.answered m rest (ack .range))) ∧
        ∀ st, 1 ≤ m.a0 → c.stages[m.a0 - 1]? = some st →
          exec .toggleStage s = .next { s.answered m rest (ack .ok) with
            sce := { s.sce with live := some { c with
              stages := c.stages.set (m.a0 - 1) { st with enabled := !st.enabled }
              edited := true } } })) ∧
  let full : Int × Int × ParamClass := (-8388608, 8388607, .boundary)
  let sound (hi : Int) : Int × Int × ParamClass := (0, hi, .ramp)
  let count (lo hi : Int) : Int × Int × ParamClass := (lo, hi, .boundary)
  let fixed (hi : Int) : Int × Int × ParamClass := (0, hi, .structural)
  let rows : StageKind → List (Int × Int × ParamClass) := fun k =>
    match k with
    | .gate => [count 0 8388607, count 0 8388607, count 0 255, count 0 3000, count 0 3000]
    | .eq => [full, full, full, full, full]
    | .drive => [fixed 15, sound 65535, sound 65535]
    | .amp => [full, full, full, full, full, fixed 15, sound 65535, sound 32767, count 0 32767,
        count 0 32767] ++ List.replicate 15 full ++ [sound 65535]
    | .cab => [fixed 7, fixed 16777215, sound 65535]
    | .mod => [count 1 2000, count 0 1024, count 16 2047, sound 32768, sound 32767]
    | .delay => [fixed 3, sound 65535, count 0 1, count 1 98303, count 1 8, count 1 16, sound 32767,
        sound 32767, count 0 32768, count 0 1]
    | .loop => [sound 65535, sound 65535, sound 32768]
    | .volume => [sound 65535]
  ∀ k : StageKind, (rows k).length = k.count ∧
    ∀ (i : Nat) (lo hi : Int) (how : ParamClass), (rows k)[i]? = some (lo, hi, how) →
      paramClass k i = how ∧ (∀ v, paramClamp k i v = max lo (min hi v)) ∧
      ∀ w : Word24, paramValue k i w = if lo < 0 then w.toInt else w.toNat

/-- R62, R118, R150, R175, R180: GATE_LIMIT, TAIL_CFG, PEDAL_CFG, METER and CLICK take their settings,
clamped or refused as each rule gives, and change nothing else; METER lowers a beat above the new meter to it. -/
def Obligations.SettingsTakenOrRefused : Prop :=
  ∀ (m : Message) (rest : List Message) (s : State),
    (Takes .gateLimit m rest s → exec .gateLimit s = .next
      (if m.body ≠ [] then s.answered m rest (ack .badLength)
       else if 128 < m.a0 then s.answered m rest (ack .range)
       else { s.answered m rest (ack .ok) with tbm := { s.tbm with gateLimit := m.a0 } })) ∧
    (Takes .tailCfg m rest s →
      (m.body.length ≠ 3 → exec .tailCfg s = .next (s.answered m rest (ack .badLength))) ∧
      ∀ w1 w2 w3, m.body = [w1, w2, w3] →
        exec .tailCfg s = .next { s.answered m rest (ack .ok) with
          dlu := { s.dlu with
            threshold := min w1.toNat 8388607
            quietTime := max 1 (min w2.toNat 65535)
            limit := max 1 (min w3.toNat 120) } }) ∧
    (Takes .pedalCfg m rest s →
      (m.body.length ≠ 1 → exec .pedalCfg s = .next (s.answered m rest (ack .badLength))) ∧
      ∀ w, m.body = [w] →
        exec .pedalCfg s = .next
          (if m.a0 = 0 then s.answered m rest (ack .range)
           else { s.answered m rest (ack .ok) with
             pmn := { s.pmn with debounce := m.a0, reporting := bit 0 w } })) ∧
    (Takes .meter m rest s →
      exec .meter s = .next
        (if m.body ≠ [] then s.answered m rest (ack .badLength)
         else if m.a0 = 0 ∨ 16 < m.a0 then s.answered m rest (ack .range)
         else { s.answered m rest (ack .ok) with
           tck := { s.tck with
             meter := m.a0, beat := if m.a0 < s.tck.beat then m.a0 else s.tck.beat } })) ∧
    (Takes .click m rest s →
      (m.body.length ≠ 0 ∧ m.body.length ≠ 2 →
        exec .click s = .next (s.answered m rest (ack .badLength))) ∧
      (m.body.length = 0 ∨ m.body.length = 2 → 2 < m.a0 →
        exec .click s = .next (s.answered m rest (ack .range))) ∧
      ∀ mode : ClickMode, (m.a0 = 0 ∧ mode = .off) ∨ (m.a0 = 1 ∧ mode = .on) ∨
          (m.a0 = 2 ∧ mode = .countInOnly) →
        (m.body = [] → exec .click s = .next { s.answered m rest (ack .ok) with
          tck := { s.tck with clickMode := mode } }) ∧
        ∀ w1 w2, m.body = [w1, w2] →
          exec .click s = .next { s.answered m rest (ack .ok) with
            tck := { s.tck with
              clickMode := mode
              accentLevel := min (bits 15 0 w1) 32768
              normalLevel := min (bits 15 0 w2) 32768 } })

/-- R109, R119, R172, R173, R174, R179, R180, R185, R188, R190: TEMPO sets the period of the clamped tempo,
closes the tap series and brings the phase to 0; every LIVE line takes the values of its governing stage, in
SYNCED mode with the time of the new period; the answer is the one record queued. In the middle of a beat a
restart boundary is raised: the pending switch latches it (R136), which behind a block boundary of the same
frame then waits for the next one (log 27), no beat and no count-in bar is counted, a held operation or a
start that waits with a count-in for a bar boundary falls due, and where nothing falls due a burst starts by
the click mode and the sequencer. The beat, the meter, the click settings, the tables, the slots, the
engine, the pedals and the tuner are kept. The place of the phase's rise beside a TEMPO is the model's
choice (log 18), and so is that a held ADVANCE or SKIP which the restart boundary calls for is carried out
as a step of its own, on which the tables and the slots kept here rest (log 17). -/
def Obligations.TempoSetsThePeriod : Prop :=
  ∀ (m : Message) (rest : List Message) (s : State), Takes .tempo m rest s →
    (m.body.length ≠ 1 → exec .tempo s = .next (s.answered m rest (ack .badLength))) ∧
    ∀ w, m.body = [w] →
      let tempo := max 2000 (min (bits 15 0 w) 24000)
      let period := (288000000 + tempo / 2) / tempo
      ∃ t, exec .tempo s = .next t ∧ t.cch = (s.answered m rest (ack .ok)).cch ∧
        (∀ l, t.dlu.lines.get l = s.sce.handedLine period l (s.dlu.lines.get l)) ∧
        t.dlu = { s.dlu with lines := t.dlu.lines } ∧
        t.tck.period = period ∧ 12000 ≤ period ∧ period ≤ 144000 ∧
        t.tck.phase = 0 ∧ t.tck.tapOpen = false ∧ t.tck.tapHistory = [] ∧
        t.tck.tapCount = s.tck.tapCount ∧ t.tck.beat = s.tck.beat ∧ t.tck.meter = s.tck.meter ∧
        t.tck.clickMode = s.tck.clickMode ∧ t.tck.accentLevel = s.tck.accentLevel ∧
        t.tck.normalLevel = s.tck.normalLevel ∧ t.tbm = s.tbm ∧ t.stg = s.stg ∧ t.sce = s.sce ∧
        t.pmn = s.pmn ∧ t.tun = s.tun ∧ t.sli = s.sli ∧
        (s.tck.phase = 0 → t.swu = s.swu ∧ t.csq = s.csq ∧ t.tck.burst = s.tck.burst ∧
          t.tck.burstPos = s.tck.burstPos) ∧
        (s.tck.phase ≠ 0 → s.BoundaryRaised False s.tck.beat t)

/-- R109, R119, R136, R172, R176, R177, R179, R180, R185, R188, R190: a TAP opens a closed series; in an
open one an interval below 12,000 is ignored, one above 144,000 starts the series again, and any other joins
the history of the last four and sets the period to their floored mean, moving the beat on where the phase
stands at half the old period or beyond. In that last case the TEMPO report of source CONTROLLER follows the
answer, every LIVE line takes the values of its governing stage, in SYNCED mode with the time of the new
period, and in the middle of a beat a boundary is raised, a restart or, late in the beat, an advancing one:
the pending switch latches it, which behind a block boundary of the same frame then waits for the next one
(log 27), the sequencer takes it, counting at an advancing one alone, and where no cue event falls due a
burst starts by the click mode and the sequencer. The place of the phase's rise beside a tap is the model's
choice (log 18), and so is that a cue event which the tap's boundary calls for is carried out as a step of
its own, on which the tables and the slots kept here rest (log 17). -/
def Obligations.TapSeriesJudgesIntervals : Prop :=
  ∀ (m : Message) (rest : List Message) (s : State), Takes .tap m rest s →
    (m.body ≠ [] → exec .tap s = .next (s.answered m rest (ack .badLength))) ∧
    (m.body = [] →
      (s.tck.tapOpen = false → exec .tap s = .next { s.answered m rest (ack .ok) with
        tck := { s.tck with tapOpen := true, tapCount := 0, tapHistory := [] } }) ∧
      (s.tck.tapOpen = true → s.tck.tapCount < 12000 →
        exec .tap s = .next (s.answered m rest (ack .skipped))) ∧
      (s.tck.tapOpen = true → 144000 < s.tck.tapCount →
        exec .tap s = .next { s.answered m rest (ack .ok) with
          tck := { s.tck with tapCount := 0, tapHistory := [] } }) ∧
      (s.tck.tapOpen = true → 12000 ≤ s.tck.tapCount → s.tck.tapCount ≤ 144000 →
        let last := ((s.tck.tapHistory ++ [s.tck.tapCount]).reverse.take 4).reverse
        let late := s.tck.phase ≠ 0 ∧ s.tck.period ≤ 2 * s.tck.phase
        let beat := if ¬ late then s.tck.beat
          else if s.tck.meter ≤ s.tck.beat then 1 else s.tck.beat + 1
        ∃ t, exec .tap s = .next t ∧
          t.cch = ((s.answered m rest (ack .ok)).reporting
            [tempoRecord .controller m.tag (decide late) last.length (last.sum / last.length)]).cch ∧
          (∀ l, t.dlu.lines.get l =
            s.sce.handedLine (last.sum / last.length) l (s.dlu.lines.get l)) ∧
          t.dlu = { s.dlu with lines := t.dlu.lines } ∧
          (s.tck.phase = 0 → t.swu = s.swu ∧ t.csq = s.csq ∧ t.tck.burst = s.tck.burst ∧
            t.tck.burstPos = s.tck.burstPos) ∧
          (s.tck.phase ≠ 0 → s.BoundaryRaised late beat t) ∧
          t.tck.tapOpen = true ∧ t.tck.tapCount = 0 ∧ t.tck.tapHistory = last ∧
          t.tck.period = last.sum / last.length ∧ t.tck.phase = 0 ∧
          t.tck.beat = beat ∧
          t.tck.meter = s.tck.meter ∧ t.tck.clickMode = s.tck.clickMode ∧
          t.tck.accentLevel = s.tck.accentLevel ∧ t.tck.normalLevel = s.tck.normalLevel ∧
          t.tbm = s.tbm ∧ t.stg = s.stg ∧ t.sce = s.sce ∧
          t.pmn = s.pmn ∧ t.tun = s.tun ∧ t.sli = s.sli))

/-- R184, R189: CUE_START refuses a list or count-in out of range and an absent directory entry; one that
passes ends what runs or waits, as STOP does, and the start then waits with its list, start index and
count-in, under its own tag. A list that runs or counts in, and a start that already waits, is ended with a
LIST_END report of reason STOPPED under the old tag; the record of a list in RUNNING, VAMPING or HELD takes
the remaining count as its residue where RESIDUE is set (R54). The beats that the report carries of a list
whose first record was never loaded, and that the remaining count is kept, are the model's reading (log 16).
-/
def Obligations.CueStartWaits : Prop :=
  ∀ (m : Message) (rest : List Message) (s : State), Takes .cueStart m rest s →
    (2 ≤ m.body.length → exec .cueStart s = .next (s.answered m rest (ack .badLength))) ∧
    ∀ countIn, (m.body = [] ∧ countIn = 0) ∨ (∃ w, m.body = [w] ∧ countIn = bits 2 0 w) →
      (15 < m.a0 ∨ 4 < countIn → exec .cueStart s = .next (s.answered m rest (ack .range))) ∧
      ∀ l : Fin 16, l.val = m.a0 → countIn ≤ 4 →
        (s.tbm.cueStart l = none →
          exec .cueStart s = .next (s.answered m rest (ack .notPresent))) ∧
        ∀ start, s.tbm.cueStart l = some start →
          let next : WaitingStart := { list := l, start := start, countIn := countIn, fresh := true }
          (∃ t, exec .cueStart s = .next t ∧ t.cch.fifo = rest ∧ t.csq.waiting = some next ∧
            t.csq.tag = m.tag ∧
            (s.csq.state ≠ .idle → t.csq.state = .idle ∧ t.csq.current = none ∧
              t.csq.lookAhead = none ∧ t.csq.heldOp = none) ∧
            t.swu = s.swu ∧ t.sce = s.sce ∧ t.dlu = s.dlu ∧ t.tck = s.tck ∧ t.tun = s.tun ∧
            t.pmn = s.pmn ∧ t.sli = s.sli) ∧
          (let ended : Tbm → Record → State := fun tbm report =>
             ({ s.answered m rest (ack .accepted) with
                csq :=
                  { s.csq with
                    state := .idle, current := none, lookAhead := none, heldOp := none
                    waiting := some next, tag := m.tag }
                tbm := tbm
                stg := { s.stg with
                  slots := vmap (fun t => { t with cuePin := false }) s.stg.slots } } :
               State).reporting [report]
           ∀ i, s.csq.current = some i →
             (s.csq.state = .running ∨ s.csq.state = .vamping ∨ s.csq.state = .held →
               let cue := s.tbm.cue i
               let residue := payload (cue.length * 2 ^ 12 + s.csq.remaining)
               let written : Tbm :=
                 { s.tbm with mem := s.tbm.mem.write (entryAddr .cue i 1) residue }
               let tbm := if cue.residue then written else s.tbm
               exec .cueStart s = .next (ended tbm (cueRecord s.csq.tag .ok 2 3 s.csq.list i
                 (tbm.cue i).scene s.csq.remaining false 0))) ∧
             (s.csq.state = .countIn →
               exec .cueStart s = .next (ended s.tbm (cueRecord s.csq.tag .ok 2 3 s.csq.list i
                 (s.tbm.cue i).scene 0 false 0)))) ∧
          (s.csq.state = .idle → s.csq.waiting = none →
            exec .cueStart s = .next { s.answered m rest (ack .accepted) with
              csq := { s.csq with waiting := some next, tag := m.tag } }) ∧
          (s.csq.state = .idle → ∀ old, s.csq.waiting = some old →
            exec .cueStart s = .next (({ s.answered m rest (ack .accepted) with
              csq :=
                { s.csq with
                  waiting := some next, tag := m.tag, list := old.list, heldOp := none
                  current := none, lookAhead := none }
              stg := { s.stg with
                slots := vmap (fun t => { t with cuePin := false }) s.stg.slots } } :
              State).reporting
              [cueRecord s.csq.tag .ok 2 3 old.list old.start (s.tbm.cue old.start).scene 0
                false 0]))

/-- R189, R54: the six operations of CUE_OP by the state of the sequencer: ADVANCE and SKIP are held, VAMP,
HOLD and RESUME move the state, STOP ends the list with a LIST_END report of reason STOPPED, and each is
SKIPPED where it does not apply. STOP in RUNNING, VAMPING or HELD writes the remaining count as the residue
of a record with RESIDUE set; with a start waiting in IDLE it removes the start and reports its list and
start index. That an A0 above 5 is answered by the row ADVANCE (log 10), that the remaining count is kept
where a list ends and that the report about a list whose first record was never loaded carries 0 beats (log
16) are the model's choices, and so are the addresses of the words (log 34). -/
def Obligations.CueOperationsByState : Prop :=
  ∀ (m : Message) (rest : List Message) (s : State),
    let running := s.csq.state = .running ∨ s.csq.state = .vamping ∨ s.csq.state = .held
    let skipped := s.answered m rest (ack .skipped)
    let moved : Code → Csq → State := fun c q => { s.answered m rest (ack c) with csq := q }
    let held : HeldOp → State := fun h =>
      if ¬ running then skipped
      else if s.csq.heldOp = some h then s.answered m rest (ack .already)
      else moved .accepted { s.csq with heldOp := some h }
    let refused := s.answered m rest (ack .badLength)
    (Takes .advance m rest s → exec .advance s = .next
      (if m.body ≠ [] then refused
       else if 5 < m.a0 then s.answered m rest (ack .range) else held .advance)) ∧
    (Takes .skip m rest s → exec .skip s = .next
      (if m.body ≠ [] then refused else held .skip)) ∧
    (Takes .vamp m rest s → exec .vamp s = .next
      (if m.body ≠ [] then refused
       else if s.csq.state = .running then moved .ok { s.csq with state := .vamping }
       else skipped)) ∧
    (Takes .hold m rest s → exec .hold s = .next
      (if m.body ≠ [] then refused
       else if s.csq.state = .running ∨ s.csq.state = .vamping then
         moved .ok { s.csq with state := .held }
       else skipped)) ∧
    (Takes .resume m rest s → exec .resume s = .next
      (if m.body ≠ [] then refused
       else if s.csq.state = .vamping ∨ s.csq.state = .held then
         moved .ok { s.csq with state := .running }
       else skipped)) ∧
    (Takes .stop m rest s →
      (m.body ≠ [] → exec .stop s = .next refused) ∧
      (m.body = [] → s.csq.state = .idle → s.csq.waiting = none →
        exec .stop s = .next skipped) ∧
      let ended : Csq → Tbm → Record → State := fun q tbm report =>
        ({ s.answered m rest (ack .ok) with
          csq := { q with state := .idle, current := none, lookAhead := none, heldOp := none }
          tbm := tbm
          stg := { s.stg with
            slots := vmap (fun t => { t with cuePin := false }) s.stg.slots } } :
          State).reporting [report]
      (∀ i, m.body = [] → running → s.csq.current = some i →
        let cue := s.tbm.cue i
        let residue := payload (cue.length * 2 ^ 12 + s.csq.remaining)
        let written : Tbm := { s.tbm with mem := s.tbm.mem.write (entryAddr .cue i 1) residue }
        let tbm := if cue.residue then written else s.tbm
        exec .stop s = .next (ended s.csq tbm
          (cueRecord s.csq.tag .ok 2 3 s.csq.list i (tbm.cue i).scene s.csq.remaining false 0))) ∧
      (∀ i, m.body = [] → s.csq.state = .countIn → s.csq.current = some i →
        exec .stop s = .next (ended s.csq s.tbm
          (cueRecord s.csq.tag .ok 2 3 s.csq.list i (s.tbm.cue i).scene 0 false 0))) ∧
      ∀ w, m.body = [] → s.csq.state = .idle → s.csq.waiting = some w →
        exec .stop s = .next (ended { s.csq with waiting := none, list := w.list } s.tbm
          (cueRecord s.csq.tag .ok 2 3 w.list w.start (s.tbm.cue w.start).scene 0 false 0)))

/-- R194, R195, R198, R200: TUNER_MODE, TUNER_REF and TUNER_SOURCE refuse what is out of range. A mode,
reference or source equal to the one in force changes nothing; a new reference or source restarts the
window and keeps the pacing count; leaving OFF restarts the window and the pacing count; entering it
empties the window. -/
def Obligations.TunerSettingsRestartTheWindow : Prop :=
  ∀ (m : Message) (rest : List Message) (s : State),
    let fresh : Tun → Tun := fun t =>
      { t with index := 0, previous := none, armed := false, lastCross := none, periods := []
               reading := none, silence := 0 }
    let bad := s.answered m rest (ack .badLength)
    let range := s.answered m rest (ack .range)
    let ok : Tun → State := fun t => { s.answered m rest (ack .ok) with tun := t }
    (Takes .tunerMode m rest s →
      (m.body ≠ [] → exec .tunerMode s = .next bad) ∧
      (m.body = [] → 1 < m.a0 → exec .tunerMode s = .next range) ∧
      ∀ mode : TunerMode, (m.a0 = 0 ∧ mode = .off) ∨ (m.a0 = 1 ∧ mode = .background) →
        m.body = [] →
        exec .tunerMode s = .next (ok
          (if s.engaged = true ∨ mode = s.tun.mode then { s.tun with mode := mode }
           else if mode = .off then { fresh s.tun with mode := .off, pacingDue := false }
           else { fresh s.tun with mode := .background, pacing := 0, pacingDue := false }))) ∧
    (Takes .tunerRef m rest s →
      (m.body.length ≠ 1 → exec .tunerRef s = .next bad) ∧
      ∀ w, m.body = [w] →
        let r := max 430 (min (bits 15 0 w) 450)
        exec .tunerRef s = .next (ok
          (if r = s.tun.reference then s.tun else { fresh s.tun with reference := r }))) ∧
    (Takes .tunerSource m rest s →
      (m.body ≠ [] → exec .tunerSource s = .next bad) ∧
      (m.body = [] → 2 < m.a0 → exec .tunerSource s = .next range) ∧
      ∀ x : TunerSetting, (m.a0 = 0 ∧ x = .a) ∨ (m.a0 = 1 ∧ x = .b) ∨ (m.a0 = 2 ∧ x = .follow) →
        m.body = [] →
        exec .tunerSource s = .next (ok
          (if x = s.tun.source then s.tun else { fresh s.tun with source := x })))

/-! ### Reset and the link -/

/-- R16: while RESETN is held low, SDOUT is undriven in every slot and no inbound word is taken; its
release is the power-on reset, which leaves SLI in UNLOCKED with the power-on map, no waiting map, the
counts at 0 and the frame counter at 0, and the slots of the first interval carry the words R4 gives. That
nothing else acts while RESETN is low (log 7) and that the first interval behind the reset begins at a mark
(log 6) are the model's choices. -/
def Obligations.ResetnHoldsAndReleases : Prop :=
  (∀ s : State, exec .resetnAssert s = .next { s with
    sli := { s.sli with resetHeld := true, sdout := Vector.replicate 8 [] } }) ∧
  (∀ (c : Instr) (s : State), s.sli.resetHeld = true → c ≠ .resetnAssert → c ≠ .powerOnReset →
    exec c s = .next s) ∧
  ∀ s : State, ∃ t, exec .powerOnReset s = .next t ∧ t = { State.reset with pending := s.pending } ∧
    t.sli.lock = .unlocked ∧ t.sli.map = SlotMap.powerOn ∧ t.sli.waiting = none ∧
    t.sli.good = 0 ∧ t.sli.bad = 0 ∧ t.sli.counter = 0 ∧ t.sli.resetHeld = false ∧
    ∀ iv u, exec (.syncIntervalEnd iv) t = .next u →
      ∀ k : Fin 8, u.sli.sdout.get k =
        (List.replicate 32 false).take (min 256 iv.clocks - 32 * k.val)

/-- R3, R4, R6, R11, R14, R36: an interval is good if an FSYNC mark ended it after exactly 256 bit clocks.
In UNLOCKED a good one counts toward the lock and any other returns the count to 0; in LOCKED a good one
returns the bad count to 0, and the interval is kept to be delivered as a frame unless it is the second bad
one in a row (log 5). Each slot of SDOUT carries the word of its outbound role, bit 31 first, for as many
bits as the interval has clocks for it, none past the 256th, and a slot without a role is undriven. In an
interval that did not begin at a mark no slot is driven, and in LOCKED it is delivered with every slot cut
short (log 6). A reply word driven in full leaves its queue; where it is the whole ACK of an accepted
SLOTMAP, the switch-over is due. R91: in LOCKED each FOH peak follows the magnitude of the sample its slot
drives in full (log 14). All this is of the state in which the frame before the interval has been closed
(log 8): the state itself where no frame is open. The close of a frame leaves the lock as it is. -/
def Obligations.SyncIntervalsJudged : Prop :=
  (∀ s : State, s.frame.isOpen = false → s.closeFrame = s) ∧
  (∀ s : State, s.Settled → s.closeFrame.sli.lock = s.sli.lock) ∧
  (∀ (iv : SyncInterval) (s' : State), s'.Settled → s'.sli.lock = .unlocked →
     let s := s'.closeFrame
     let clocks := if s.sli.markless then 0 else min 256 iv.clocks
     let drive : Fin 8 → List Bool := fun k =>
       match s.sli.map.slotWord s.sli.outbound k with
       | some w => ((List.range 32).map fun j => bit (31 - j) w).take (clocks - 32 * k.val)
       | none => []
     exec (.syncIntervalEnd iv) s' = .next { s with
       sli := { s.sli with
         sdout := #v[drive 0, drive 1, drive 2, drive 3, drive 4, drive 5, drive 6, drive 7]
         good := if iv.mark = true ∧ iv.clocks = 256 then min 8 (s.sli.good + 1) else 0
         markless := !iv.mark } }) ∧
  (∀ (iv : SyncInterval) (s' : State), s'.Settled → s'.sli.lock = .locked →
     let s := s'.closeFrame
     let clocks := if s.sli.markless then 0 else min 256 iv.clocks
     let full := clocks / 32
     let drive : Fin 8 → List Bool := fun k =>
       match s.sli.map.slotWord s.sli.outbound k with
       | some w => ((List.range 32).map fun j => bit (31 - j) w).take (clocks - 32 * k.val)
       | none => []
     let bad := if iv.mark = true ∧ iv.clocks = 256 then 0 else s.sli.bad + 1
     let sent := ∃ k, s.sli.map.reply = some k ∧ k.val < full
     let peak : Option LinkSlot → Int → Nat → Nat := fun role x old =>
       match role with
       | some k => if k.val < full then max old x.natAbs else old
       | none => old
     ∃ t, exec (.syncIntervalEnd iv) s' = .next t ∧
       t.sli.sdout = #v[drive 0, drive 1, drive 2, drive 3, drive 4, drive 5, drive 6, drive 7] ∧
       t.sli.bad = bad ∧ t.sli.markless = !iv.mark ∧
       t.sli.received = (if bad < 2 then some { full := full, words := iv.words } else none) ∧
       t.sli.lock = .locked ∧ t.sli.map = s.sli.map ∧ t.sli.counter = s.sli.counter ∧
       t.sli.waiting = s.sli.waiting ∧ (¬ sent → t.sli.ackSent = s.sli.ackSent) ∧
       (sent → t.sli.ackSent = (s.sli.ackSent
         || s.cch.flight.any fun f => f.ends && f.words.length == 1)) ∧
       (¬ sent → t.cch = s.cch) ∧ (s.cch.flight = none → t.cch = s.cch) ∧
       (∀ f w ws, sent → s.cch.flight = some f → f.words = w :: ws →
         t.cch = { s.cch with
           flight := if ws = [] then none else some { f with words := ws } }) ∧
       t = { s with
         sli := t.sli, cch := t.cch
         sce := { s.sce with
           peakL := peak s.sli.map.fohL s.sli.outbound.fohL s.sce.peakL
           peakR := peak s.sli.map.fohR s.sli.outbound.fohR s.sce.peakR } })

/-- R4, R5, R8, R84, R109, R119, R120: the entry to LOCKED. The frame counter and the bad count become 0,
the LINK report of its cause is queued, and in both working copies stage states and enable gains return to
their start values, running values in change take their targets, M takes the value its tuner state asks for,
and F becomes 0. Every LIVE line takes the values of its governing stage; TAIL and FREE lines are kept. The
FIFO, the tables, the slots, the clock and the tuner are as they were. That the good count is kept is the
model's reading (log 19). -/
def Obligations.LockEntersLocked : Prop :=
  ∀ s : State, s.sli.resetHeld = false → s.sli.lock = .unlocked → 8 ≤ s.sli.good →
    let report : Record :=
      { kind := .link, tag := 0, code := .ok
        body := [if s.sli.everLocked then 0x10000 else 0], ends := false }
    let settled : Param → Param := fun p =>
      match p.change with
      | none => { p with fresh := false }
      | some (.boundary v) => { p with run := v, change := none, fresh := false }
      | some (.ramp _ target _) => { p with run := target, change := none, fresh := false }
    let start : Copy → Copy := fun c =>
      { c with stages := c.stages.map fun st =>
          { st with
            st := StageState.initial st.kind, params := st.params.map settled
            gain := if st.enabled then 32768 else 0 } }
    ∃ t, exec .lock s = .next t ∧
      t.sli = { s.sli with
        lock := .locked, bad := 0, counter := 0, everLocked := true, received := none
        outbound := OutWords.idle } ∧
      t.cch = s.cch.enqueue report ∧
      t.sce = { s.sce with
        live := s.sce.live.map start, fading := s.sce.fading.map start
        mute := if s.engaged then 0 else 32768, fade := 0 } ∧
      (∀ l, t.dlu.lines.get l = t.sce.handedLine s.tck.period l (s.dlu.lines.get l)) ∧
      (∀ l, (s.dlu.lines.get l).state ≠ .live → t.dlu.lines.get l = s.dlu.lines.get l) ∧
      t = { s with
        sli := t.sli, cch := t.cch, sce := t.sce, dlu := { s.dlu with lines := t.dlu.lines } }

/-- R7, R15, R45, R122, R146, R156, R182, R201: the entry to UNLOCKED from LOCKED. The link drops its
waiting map, or takes it if its ACK has been sent; the FIFO, the open message and the reply queue are
emptied and HOLD is cleared; debounce counts become 0; the click burst ends; the window of a running
tuner restarts. A crossfade in flight is completed: its FADING slot enters READY at the front of the
ready order, and a LIVE line of the old scene alone becomes FREE, any other LIVE line taking the values
of the stage of the LIVE copy on it. Every LIVE line that is left loses its samples and ends its tap fade
at its latest time, and every TAIL line becomes FREE. The tables, the pending switch, the return stack,
the tempo and the cue sequencer are kept. -/
def Obligations.LinkLossEntersUnlocked : Prop :=
  ∀ s : State, s.sli.resetHeld = false → s.sli.lock = .locked → 2 ≤ s.sli.bad →
    ∃ t, exec .linkLoss s = .next t ∧
      t.sli = { s.sli with
        lock := .unlocked, good := 0, bad := 0
        map := if s.sli.ackSent then s.sli.waiting.getD s.sli.map else s.sli.map
        waiting := none, ackSent := false, received := none, outbound := OutWords.idle } ∧
      t.cch.fifo = [] ∧ t.cch.tail = none ∧ t.cch.asm.assembling = false ∧ t.cch.hold = false ∧
      t.cch.class1 = [] ∧ t.cch.class2 = [] ∧ t.cch.class3 = [] ∧ t.cch.class4 = [] ∧
      t.cch.flight = none ∧ t.cch.counters = s.cch.counters ∧ t.cch.dropped = s.cch.dropped ∧
      t.swu = { s.swu with crossfade := none } ∧
      (s.swu.crossfade = none → t.stg = s.stg ∧ t.sce = s.sce) ∧
      (s.swu.crossfade.isSome = true → t.sce = { s.sce with fading := none } ∧
        t.stg = match s.stg.fadingSlot with
          | none => s.stg
          | some i =>
            let y := s.stg.slots.get i
            { s.stg with
              slots := upd s.stg.slots i { y with state := .ready }
              readyOrder := i :: s.stg.readyOrder.filter (· ≠ i) }) ∧
      (∀ l, t.dlu.lines.get l =
        let x := s.dlu.lines.get l
        let lost : Line → Nat → Line := fun y d =>
          { y with current := d, target := d, held := none, position := 0, mem := [] }
        match x.state with
        | .free => x
        | .tail => Line.free
        | .live =>
          if s.swu.crossfade = none then lost x (x.held.getD x.target)
          else if x.owner1 = none then Line.free
          else
            let y := { x with owner2 := none }
            match s.sce.live.bind (·.delayOn l) with
            | none => lost y (x.held.getD x.target)
            | some st =>
              let time :=
                if (st.val 2).toNat = 0 then (st.val 3).toNat
                else max 1 (min (s.tck.period * (st.val 4).toNat / (st.val 5).toNat) 98303)
              lost
                { y with
                  feedback := (st.val 6).toNat, wet := (st.val 7).toNat, pan := (st.val 8).toNat
                  tail := decide (st.val 9 = 1) }
                (if x.mem ≠ [] ∧ x.target = x.current then x.held.getD time else time)) ∧
      (∀ f, t.pmn.switches.get f = { s.pmn.switches.get f with debounce := 0 }) ∧
      t.tck = { s.tck with burst := none, burstPos := 480 } ∧
      t.tun = (if s.engaged = true ∨ s.tun.mode = .background then s.tun.restartWindow else s.tun) ∧
      t.tbm = s.tbm ∧ t.csq = s.csq

/-- R12, R14: the slot map takes the power-on slots at the power-on reset and keeps its value through every
other step of the part, but for a switch-over, which puts the waiting map in force: once the ACK of an
accepted SLOTMAP has been driven in full, the frame that carried it ends with the waiting map in force
and no waiting map. -/
def Obligations.SlotMapChangesOnlyAtASwitchover : Prop :=
  (SlotMap.powerOn =
     { guitarA := some 0, guitarB := some 1, loopReturn := some 2, pedal := some 6
       control := some 7, fohL := some 0, fohR := some 1, ampFeed := some 2, direct := some 3
       loopSend := some 4, click := some 5, status := some 6, reply := some 7 } ∧
   ∀ (c : Instr) (s t : State), exec c s = .next t →
     (c = .powerOnReset → t.sli.map = SlotMap.powerOn) ∧
     (c ≠ .powerOnReset → t.sli.map ≠ s.sli.map →
       s.sli.ackSent = true ∧ s.sli.waiting = some t.sli.map)) ∧
  (∀ (map : SlotMap) (s : State), s.Settled → s.sli.ackSent = true → s.sli.waiting = some map →
     s.frame.isOpen = true →
     ∃ t, exec .slotmapSwitchover s = .next t ∧ t.sli.map = map ∧ t.sli.waiting = none ∧
       t.sli.ackSent = false ∧ t.sli.lock = s.sli.lock ∧ t.frame.isOpen = false)

/-! ### The assembler, the command FIFO and the reply queue -/

/-- R23, R24, R28, R29, R30, R31: how the assembler takes HEAD, BODY and IDLE words. A HEAD opens a message,
or is complete at once with L = 0; a BODY in sequence is appended, and the L-th completes the message,
which joins the complete messages; HOLD follows the fill. With the FIFO full a HEAD opens its message
headless and a BODY marks it damaged; each is counted as dropped and not written, and so is every later BODY
of the message, which still counts toward L and for the timeout. A damaged message that completes joins the
complete messages with its mark; a headless one is reported by a FAULT record with code OVERRUN. -/
def Obligations.AssemblerOpensAndCompletes : Prop :=
  ∀ c : Cch,
    let overrun : Byte → Nat → Nat → Record := fun tag code bodies =>
      { kind := .fault, tag := tag, code := .overrun
        body := [payload (code <<< 16 + bodies <<< 10 + 12)], ends := false }
    (c.asm.assembling = false → c.arrival .idle = c) ∧
    (c.asm.assembling = true →
      c.arrival .idle = { c with asm := { c.asm with timeout := c.asm.timeout + 1 } }) ∧
    (c.asm.assembling = false → c.tail = none → ∀ len code tag a0,
      let msg : Message := { len := len, code := code, tag := tag, a0 := a0, body := [], damaged := false }
      let asm : Bool → Assembler := fun headless =>
        { assembling := decide (len ≠ 0), len := len, code := code, tag := tag, a0 := a0
          bodies := 0, timeout := 0, damaged := false, headless := headless }
      let dropped : Cch :=
        { c with
          asm := asm true
          counters := { c.counters with
            wordsDropped := min 65535 (c.counters.wordsDropped + 1) } }
      (c.fill < 128 → c.arrival (.head len code tag a0) =
        { c with
          asm := asm false
          fifo := if len = 0 then c.fifo ++ [msg] else c.fifo
          tail := if len = 0 then none else some msg
          hold := holdAt (c.fill + 1) c.hold }) ∧
      (128 ≤ c.fill → c.arrival (.head len code tag a0) =
        if len = 0 then dropped.enqueue (overrun tag code 0) else dropped)) ∧
    (c.asm.assembling = true → c.asm.headless = false → c.asm.damaged = false →
      ∀ msg data, c.tail = some msg →
        let asm : Assembler := { c.asm with bodies := c.asm.bodies + 1, timeout := 0 }
        let longer : Message := { msg with body := msg.body ++ [data] }
        (c.fill < 128 → c.asm.bodies + 1 ≠ c.asm.len →
          c.arrival (.body c.asm.bodies data) =
            { c with asm := asm, tail := some longer, hold := holdAt (c.fill + 1) c.hold }) ∧
        (c.fill < 128 → c.asm.bodies + 1 = c.asm.len →
          c.arrival (.body c.asm.bodies data) =
            { c with
              asm := { asm with assembling := false }
              tail := none, fifo := c.fifo ++ [{ longer with damaged := false }]
              hold := holdAt (c.fill + 1) c.hold }) ∧
        (128 ≤ c.fill →
          let dropped : Cch :=
            { c with
              asm := { asm with damaged := true }
              counters := { c.counters with
                wordsDropped := min 65535 (c.counters.wordsDropped + 1) } }
          c.arrival (.body c.asm.bodies data) =
            if c.asm.bodies + 1 = c.asm.len then
              { dropped with
                asm := { dropped.asm with assembling := false }
                tail := none, fifo := c.fifo ++ [{ msg with damaged := true }] }
            else dropped)) ∧
    (c.asm.assembling = true → ∀ data,
      let asm : Assembler := { c.asm with bodies := c.asm.bodies + 1, timeout := 0 }
      let dropped : Cch :=
        { c with
          asm := asm
          counters := { c.counters with
            wordsDropped := min 65535 (c.counters.wordsDropped + 1) } }
      (c.asm.headless = true ∨ c.asm.damaged = true → c.asm.bodies + 1 ≠ c.asm.len →
        c.arrival (.body c.asm.bodies data) = dropped) ∧
      (c.asm.headless = true → c.asm.bodies + 1 = c.asm.len →
        c.arrival (.body c.asm.bodies data) =
          ({ dropped with asm := { asm with assembling := false } } : Cch).enqueue
            (overrun c.asm.tag c.asm.code (c.asm.bodies + 1))) ∧
      (c.asm.headless = false → c.asm.damaged = true → c.asm.bodies + 1 = c.asm.len →
        ∀ msg, c.tail = some msg → c.arrival (.body c.asm.bodies data) =
          { dropped with
            asm := { asm with assembling := false }
            tail := none, fifo := c.fifo ++ [{ msg with damaged := true }] }))

/-- R25, R26, R28, R29: a BODY out of sequence, a HEAD inside a message and a BODY with no message open are
each counted as a fragment and reported; a message whose timeout count has reached 480 is counted and
reported by a FAULT record with code TIMEOUT. The open message leaves the FIFO from its tail and the
assembler returns to IDLE; a HEAD is then taken as in IDLE. The complete messages stay. -/
def Obligations.AssemblyFailuresReported : Prop :=
  (∀ c : Cch,
     let counted : Cch :=
       { c with counters := { c.counters with fragments := min 65535 (c.counters.fragments + 1) } }
     let report : Byte → Nat → Nat → Nat → Nat → Record := fun tag code bodies seq trigger =>
       { kind := .fault, tag := tag, code := .fragment
         body := [payload (code <<< 16 + bodies <<< 10 + seq <<< 4 + trigger <<< 2)], ends := false }
     let discarded : Cch → Cch := fun d =>
       { d with
         tail := none, asm := { d.asm with assembling := false }
         hold := holdAt ({ d with tail := none } : Cch).fill d.hold }
     (c.asm.assembling = true →
       (∀ seq data, seq ≠ c.asm.bodies →
         c.arrival (.body seq data) =
           discarded (counted.enqueue (report c.asm.tag c.asm.code c.asm.bodies seq 0))) ∧
       ∀ len code tag a0, c.arrival (.head len code tag a0) =
         (discarded (counted.enqueue (report c.asm.tag c.asm.code c.asm.bodies 0 1))).arrival
           (.head len code tag a0)) ∧
     (c.asm.assembling = false → ∀ seq data,
       c.arrival (.body seq data) = counted.enqueue (report 0 0 0 seq 2))) ∧
  (∀ s : State, s.sli.resetHeld = false → s.cch.asm.assembling = true → 480 ≤ s.cch.asm.timeout →
     let a := s.cch.asm
     let report : Record :=
       { kind := .fault, tag := a.tag, code := .timeout
         body := [payload (a.code <<< 16 + a.bodies <<< 10 + 12)], ends := false }
     let queued := ({ s.cch with counters := { s.cch.counters with
       timeouts := min 65535 (s.cch.counters.timeouts + 1) } } : Cch).enqueue report
     exec .assemblyTimeout s = .next { s with
       cch := { queued with
         tail := none, asm := { a with assembling := false }
         hold := holdAt ({ s.cch with tail := none } : Cch).fill s.cch.hold } })

/-- R27: an ABORT in ASSEMBLING discards the open message from the FIFO tail and returns the assembler to
IDLE; no report is queued, no counter changes and the complete messages stay, so the message receives
no reply. An ABORT in IDLE is ignored. HOLD follows the fill. -/
def Obligations.AbortWithdrawsTheOpenMessage : Prop :=
  ∀ c : Cch,
    (c.asm.assembling = true → c.arrival .abort = { c with
      tail := none, asm := { c.asm with assembling := false }
      hold := holdAt ({ c with tail := none } : Cch).fill c.hold }) ∧
    (c.asm.assembling = false → c.arrival .abort = c)

/-- R39: a new TUNE record takes the place of the waiting one; with none waiting it is queued if the room
is at least its length, and dropped otherwise, which raises the TUNE-dropped counter and does not set
DROPPED. A record that the serializer has started is not replaced, and a replaced one is not counted. -/
def Obligations.TuneRecordReplacesTheWaitingOne : Prop :=
  ∀ (c : Cch) (r : Record), r.kind = .tune →
    let room := 256 - c.replyWords
    c.enqueue r =
      if c.class4 ≠ [] ∨ 1 + r.body.length ≤ room then { c with class4 := [r] }
      else { c with counters := { c.counters with
        tuneDropped := min 65535 (c.counters.tuneDropped + 1) } }

/-- R36, R37, R38: a class 1 or class 3 record joins the back of its class if the room is at least its
length, and is otherwise dropped whole, with DROPPED set and the records-dropped counter raised. The
serializer goes on with a started record, or else starts the oldest record of the lowest-numbered class
that is not empty; its RHEAD comes first and its RBODY words follow, numbered from 0. -/
def Obligations.ReplyQueueByClass : Prop :=
  (∀ (c : Cch) (r : Record), r.kind ∈ [RecordKind.link, .fault, .switch, .gate, .cue, .pedal,
      .tempo, .arm] →
    (256 - c.replyWords < 1 + r.body.length → c.enqueue r = { c with
      dropped := true
      counters := { c.counters with
        recordsDropped := min 65535 (c.counters.recordsDropped + 1) } }) ∧
    (1 + r.body.length ≤ 256 - c.replyWords →
      (r.kind = .link ∨ r.kind = .fault → c.enqueue r = { c with class1 := c.class1 ++ [r] }) ∧
      (r.kind ≠ .link ∧ r.kind ≠ .fault → c.enqueue r = { c with class3 := c.class3 ++ [r] }))) ∧
  (∀ c : Cch, c.flight.isSome = true → c.serialize = c) ∧
  ∀ (c : Cch) (r : Record) (rs : List Record), c.flight = none →
    let started : Cch := { c with flight := some { words := r.words, ends := r.ends } }
    (c.class1 = r :: rs → c.serialize = { started with class1 := rs }) ∧
    (c.class1 = [] → c.class2 = r :: rs → c.serialize = { started with class2 := rs }) ∧
    (c.class1 = [] → c.class2 = [] → c.class3 = r :: rs →
      c.serialize = { started with class3 := rs }) ∧
    (c.class1 = [] → c.class2 = [] → c.class3 = [] → c.class4 = r :: rs →
      c.serialize = { started with class4 := rs }) ∧
    started.nextWord = r.rhead ∧ r.words.length = 1 + r.body.length ∧
    ∀ i, i < r.body.length → r.words[i + 1]? = some (rbody i (r.body.getD i 0))

/-- R3, R5, R6, R9, R11, R14, R19, R36: a frame that ends with nothing to come in it shows the state as it
stands in its status word, sends the word the serializer chooses, and raises the frame counter; the executor
takes no message. Each field of the status word is the state it names. The interval that closes it drives
the words of the frame bit by bit, is judged and kept for delivery unless it is the second bad one in a row
(log 5, log 6); a reply word driven in full leaves its queue, and where it is the whole ACK of an accepted
SLOTMAP the switch-over is due. R91: the FOH peaks follow the samples driven (log 14). That the frame closes
when the next interval ends is the model's choice (log 8). -/
def Obligations.FrameEndShowsTheStatus : Prop :=
  (∀ s : State,
    let w := s.statusWord
    bits 31 24 w = byteOf s.liveScene ∧ (s.StackLegal → bits 23 21 w = s.swu.stack.length) ∧
    bits 20 19 w = (if s.engaged then 2 else if s.tun.mode = .background then 1 else 0) ∧
    bits 18 16 w = s.csq.state.value ∧ (s.tck.Legal → bits 15 12 w + 1 = s.tck.beat) ∧
    bit 11 w = s.cch.hold ∧ bit 10 w = s.swu.pending.isSome ∧ bit 9 w = s.swu.crossfade.isSome ∧
    bit 8 w = s.sce.live.any Copy.edited ∧ bit 7 w = s.sce.clip ∧
    bit 6 w = decide (0 < s.cch.replyWords) ∧ bit 5 w = s.cch.dropped ∧
    bit 4 w = (s.stg.preparing).isSome ∧ bits 3 0 w = s.sli.counter.toNat % 16) ∧
  ∀ (iv : SyncInterval) (s : State), s.Settled → s.frame = { FrameEnd.closed with isOpen := true } →
    s.pmn.events = [] → s.cch.fifo = [] → s.sli.lock = .locked → s.sli.ackSent = false →
    let clocks := if s.sli.markless then 0 else min 256 iv.clocks
    let full := clocks / 32
    let peak : Option LinkSlot → Int → Nat → Nat := fun role x old =>
      match role with
      | some k => if k.val < full then max old x.natAbs else old
      | none => old
    let c := s.cch.serialize
    let words := { s.sli.outbound with
      status := ({ s with cch := c } : State).statusWord, reply := c.nextWord }
    let drive : Fin 8 → List Bool := fun k =>
      match s.sli.map.slotWord words k with
      | some w => ((List.range 32).map fun j => bit (31 - j) w).take (clocks - 32 * k.val)
      | none => []
    let bad := if iv.mark = true ∧ iv.clocks = 256 then 0 else s.sli.bad + 1
    let sent := ∃ k, s.sli.map.reply = some k ∧ k.val < full
    ∃ t, exec (.syncIntervalEnd iv) s = .next t ∧ t.frame = FrameEnd.closed ∧
      t.sli = { s.sli with
        counter := s.sli.counter + 1, outbound := words
        sdout := #v[drive 0, drive 1, drive 2, drive 3, drive 4, drive 5, drive 6, drive 7]
        bad := bad, markless := !iv.mark
        received := if bad < 2 then some { full := full, words := iv.words } else none
        ackSent := t.sli.ackSent } ∧
      (t.sli.ackSent = true ↔ sent ∧ ∃ f w, c.flight = some f ∧ f.ends = true ∧ f.words = [w]) ∧
      (¬ sent → t.cch = c) ∧ (c.flight = none → t.cch = c) ∧
      (∀ f w ws, sent → c.flight = some f → f.words = w :: ws →
        t.cch = { c with flight := if ws = [] then none else some { f with words := ws } }) ∧
      t.sce = { s.sce with
        peakL := peak s.sli.map.fohL s.sli.outbound.fohL s.sce.peakL
        peakR := peak s.sli.map.fohR s.sli.outbound.fohR s.sce.peakR } ∧
      t.swu = s.swu ∧ t.stg = s.stg ∧ t.dlu = s.dlu ∧ t.tck = s.tck ∧ t.csq = s.csq ∧
      t.tun = s.tun ∧ t.pmn = s.pmn ∧ t.tbm = s.tbm ∧ t.cch.fifo = []

/-! ### Frames and block boundaries -/

/-- R5, R6, R9, R10, R176, R178: a locked frame is processed as a whole. The inbound words are taken (a
slot cut short or a role set to NONE gives a zero sample), the click sample goes out, the square wave of the
burst at its level, the burst position and the interval count of an open tap series rise, and the end of the
frame is then open, with a block boundary due after a counter value of 15 modulo 16. Tables,
map, lock, counter, return stack, period, meter and beat are kept; the elapsed count of a crossfade
rises toward its length.
R70, R71, R73–R79, R81–R84, R92, R106, R107: both chains run, their outputs are mixed by the crossfade
weight with the wet outputs of the lines, and the outputs carry the mixes through M and F; stage states,
enable gains and clip counters move, and every clip sets CLIP. R110–R112, R114: a LIVE or TAIL line
reads its tap, and writes the sends that reach it and its feedback; a FREE line is left.
R148, R149, R154, R155, R88: the pedal word is debounced, the events it confirms wait in number order, and
expression changes with no footswitch event before them are taken at once, with the PEDAL report of each where
reporting is on, and start the changes of their maps, in entry order. The reply queue takes nothing else but
what the CONTROL word raises (R23). The slots, the pending switch and a start that waits are now older than the
frame (R127, R139, R142, R185), and the cue sequencer is kept otherwise. R195, R196: the tuner measures the
effective source.
The operand for the two orders that R30 and R201 leave open, the place of the phase's rise, the list in
which confirmed events wait, the place of expression changes behind cue events, that of an assembly timeout
behind their reports, and the replacement of a value that still waits are the model's choices (log 9, log 18,
log 31, log 17, log 42, log 44). -/
def Obligations.LockedFrameProcessed : Prop :=
  (∀ (o : FrameOrder) (r : Received) (s : State), s.sli.resetHeld = false → s.sli.lock = .locked →
    s.sli.received = some r →
    let a := r.sample s.sli.map.guitarA
    let b := r.sample s.sli.map.guitarB
    let f : FrameIn := { a := a, b := b, ret := r.sample s.sli.map.loopReturn, tbm := s.tbm }
    let live := s.sce.live.map Copy.age
    let fading := s.sce.fading.map Copy.age
    let w : Option Nat :=
      s.swu.crossfade.map fun x => min x.length (x.elapsed + 1) * 32768 / x.length
    let mixed : Int → Int → Int := fun incoming outgoing =>
      match w with
      | none => incoming
      | some w => (incoming * w + outgoing * (32768 - w) + 16384) / 32768
    let line : LineNo → Line := fun l => s.dlu.lines.get l
    let wet : LineNo → Int := fun l => share (line l).wetSample ((line l).frameFactor w)
    let inUse := four.filter fun l => (line l).state ≠ .free
    let m := mixed (live.elim a (Copy.frameOut f)) (fading.elim a (Copy.frameOut f))
    let left := m + (inUse.map fun l => share (wet l) (line l).pan).sum
    let right := m + (inUse.map fun l => share (wet l) (32768 - (line l).pan : Int)).sum
    let mute := if s.engaged then s.sce.mute - 128 else min 32768 (s.sce.mute + 128)
    let out : Int → Int := fun x => share (share x mute) s.sce.fade
    let terms : LineNo → Int := fun l =>
      live.elim 0 (Copy.sendInto f l (w.getD 32768))
        + fading.elim 0 (Copy.sendInto f l (32768 - w.getD 32768))
        + share (line l).tapSample (line l).feedback
    let mixClips := live.elim 0 (fun c => clipOf (c.levelled f))
      + fading.elim 0 (fun c => clipOf (c.levelled f)) + clipOf left + clipOf right
      + (inUse.map fun l => clipOf (terms l)).sum
    let stageClips := live.elim 0 (Copy.stageClips f) + fading.elim 0 (Copy.stageClips f)
    let engine : Sce :=
      { s.sce with
        live := live.map (Copy.afterFrame f), fading := fading.map (Copy.afterFrame f)
        mute := mute, fade := min 32768 (s.sce.fade + 8)
        mixClips := min 65535 (s.sce.mixClips + mixClips)
        clip := s.sce.clip || decide (0 < mixClips + stageClips) }
    let k := s.tck.burstPos
    let magnitude : Int := (4194304 * (480 - k : Int) + 240) / 480
    let wave : Nat → Nat → Int := fun half level =>
      if 480 ≤ k then 0
      else ((if k % (2 * half) < half then magnitude else -magnitude) * level + 16384) / 32768
    let click : Int := match s.tck.burst with
      | none => 0
      | some .accent => wave 16 s.tck.accentLevel
      | some .normal => wave 24 s.tck.normalLevel
    let pedal := r.pedal s.sli.lastPedal s.sli.map.pedal
    let confirms : SwitchNo → Bool := fun k =>
      let x := s.pmn.switches.get k
      pedalDown pedal k != x.reference && decide (16 * s.pmn.debounce ≤ x.debounce + 1)
    let confirmed := (twelve.filter confirms).map fun k =>
      if pedalDown pedal k then PedalEvent.press k else .release k
    let change : Nat → Nat → Bool := fun last v => 2 ≤ ((v : Int) - last).natAbs
    let first := pedalReading pedal |>.any fun v => change s.pmn.last1 v.1
    let second := pedalReading pedal |>.any fun v => change s.pmn.last2 v.2
    let readings := (pedalReading pedal).getD (0, 0)
    let engine1 : State :=
      if first then ({ s with sce := engine } : State).applyExpMaps 1 readings.1
      else { s with sce := engine }
    let engine2 := if second then engine1.applyExpMaps 2 readings.2 else engine1
    let word := r.control s.sli.map.control
    let arrived := if o.controlLast then s.cch else s.cch.arrival (controlWord word)
    let changes := if s.pmn.reporting ∧ confirmed = [] then
        (if first then [expressionRecord 1 readings.1] else [])
          ++ (if second then [expressionRecord 2 readings.2] else [])
      else []
    ∃ t, exec (.lockedFrame o) s = .next t ∧
      t.frame.isOpen = true ∧ t.frame.taken = false ∧ t.frame.atBlock = false ∧
      t.frame.blockDue = decide (s.sli.counter.toNat % 16 = 15) ∧
      t.sli.received = none ∧ t.sli.lock = .locked ∧ t.sli.map = s.sli.map ∧
      t.sli.counter = s.sli.counter ∧ t.sli.lastPedal = pedal ∧
      t.sli.outbound = { s.sli.outbound with
        fohL := out (clampSample left)
        fohR := out (clampSample right)
        ampFeed := out (mixed (live.elim a (Copy.ampTap f)) (fading.elim a (Copy.ampTap f)))
        loopSend := out (mixed (live.elim 0 (Copy.loopSend f)) (fading.elim 0 (Copy.loopSend f)))
        direct :=
          share (match s.sce.live with
            | none => a
            | some c => if c.inputSelect = 1 then b
                        else if c.inputSelect = 2 then (a + b) / 2 else a) s.sce.fade
        click := click } ∧
      (∀ k : LinkSlot, r.sample (some k) =
        if k.val < r.full then ((r.words.get k).extractLsb' 8 24).toInt else 0) ∧
      r.sample none = 0 ∧
      (∀ l, (line l).state ≠ .free → t.dlu.lines.get l =
        { line l with
          position := if (line l).target = (line l).current then (line l).position
                      else (line l).position + 1
          mem := (clampSample (terms l) :: (line l).mem).take 98304
          peak := if (line l).state = .tail then max (line l).peak (line l).wetSample.natAbs
                  else (line l).peak }) ∧
      (∀ l, (line l).state = .free → t.dlu.lines.get l = line l) ∧
      t.dlu = { s.dlu with lines := t.dlu.lines } ∧
      (∀ k, t.pmn.switches.get k =
        let x := s.pmn.switches.get k
        if pedalDown pedal k = x.reference then { x with debounce := 0, fresh := false }
        else if x.debounce + 1 < 16 * s.pmn.debounce then
          { x with debounce := x.debounce + 1, fresh := false }
        else { x with reference := pedalDown pedal k, debounce := 0, fresh := false }) ∧
      (s.pmn.events = [] → s.csq.due = none →
        (confirmed ≠ [] → t.sce = engine ∧ t.pmn.last1 = s.pmn.last1 ∧
          t.pmn.last2 = s.pmn.last2 ∧ t.pmn.events = confirmed
            ++ (if first then [.expression false readings.1] else [])
            ++ (if second then [.expression true readings.2] else [])) ∧
        (confirmed = [] → t.sce = engine2.sce ∧ t.pmn.events = [] ∧
          t.pmn.last1 = (if first then readings.1 else s.pmn.last1) ∧
          t.pmn.last2 = (if second then readings.2 else s.pmn.last2))) ∧
      (s.pmn.events = [] → s.csq.due = none → s.cch.outbox = [] →
        t.cch = (({ s with cch := arrived } : State).reporting changes).cch) ∧
      t.tbm = s.tbm ∧
      t.swu =
        { pending := s.swu.pending.map fun p => { p with fresh := false }
          crossfade := s.swu.crossfade.map fun x =>
            { x with elapsed := min x.length (x.elapsed + 1), reversalFresh := false }
          stack := s.swu.stack } ∧
      t.stg = { s.stg with slots := vmap (fun x => { x with fresh := false }) s.stg.slots } ∧
      t.csq = { s.csq with waiting := s.csq.waiting.map fun w => { w with fresh := false } } ∧
      t.tck = { s.tck with
        phase := if s.tck.period ≤ s.tck.phase + 1 then s.tck.phase else s.tck.phase + 1
        burstPos := if s.tck.burst = none then k else min 480 (k + 1)
        tapCount := if s.tck.tapOpen = true then min 144001 (s.tck.tapCount + 1)
                    else s.tck.tapCount } ∧
      (t.frame.riseDue = true ↔ s.frame.riseDue = true ∨ s.tck.period ≤ s.tck.phase + 1) ∧
      (o.measureLast = true → t.frame.lateSamples = some (a, b) ∧ t.tun = s.tun) ∧
      (o.measureLast = false → t.frame.lateSamples = none ∧
        t.tun = if s.engaged = false ∧ s.tun.mode = .off then s.tun
                else s.tun.measure (if s.sourceIsB then b else a)) ∧
      (o.controlLast = true → t.frame.lateControl = some word ∧ t.cch.asm = s.cch.asm ∧
        t.cch.fifo = s.cch.fifo) ∧
      (o.controlLast = false → t.frame.lateControl = none ∧
        t.cch.asm = (s.cch.arrival (controlWord word)).asm ∧
        t.cch.fifo = (s.cch.arrival (controlWord word)).fifo)) ∧
  (∀ (second : Bool) (v : Nat) (s : State), s.expressionChange second v = s.changed second v) ∧
  (∀ (p v : Nat) (s : State), s.applyExpMaps p v = State.applyExpMap p v 3
    (State.applyExpMap p v 2 (State.applyExpMap p v 1 (State.applyExpMap p v 0 s)))) ∧
  ∀ (p v i : Nat) (s : State),
    let e := s.tbm.expMap i
    (e.enabled = false ∨ e.pedal ≠ p ∨ s.sce.live = none → s.applyExpMap p v i = s) ∧
    ∀ c, e.enabled = true → e.pedal = p → s.sce.live = some c →
      (e.stage = 0 ∨ c.stages.length < e.stage → s.applyExpMap p v i = s) ∧
      ∀ st, 1 ≤ e.stage → c.stages[e.stage - 1]? = some st →
        (st.kind.count ≤ e.param ∨ paramClass st.kind e.param = .structural →
          s.applyExpMap p v i = s) ∧
        (e.param < st.kind.count → paramClass st.kind e.param ≠ .structural →
          let target := paramClamp st.kind e.param (e.min + (e.max - e.min) * v / 1023)
          let start : Param → Param := fun x =>
            { x with
              change := some (if paramClass st.kind e.param = .ramp then .ramp x.run target 0
                              else .boundary target)
              fresh := true }
          s.applyExpMap p v i = { s with sce := { s.sce with live := some { c with
            stages := c.stages.set (e.stage - 1)
              { st with params := st.params.modify e.param start } } } })

/-- R81, R82, R83, R84, R92, R145: in passthrough, with no line in use, both FOH outputs and the amp
feed carry GUITAR_A through M and F, DIRECT carries it through F alone and the loop send is zero; M
moves by 128 toward the value the tuner state asks for and F rises by 8. The peaks, which follow the
samples as they are driven (R91), are kept. -/
def Obligations.PassthroughFrame : Prop :=
  ∀ (o : FrameOrder) (r : Received) (s : State), s.sli.resetHeld = false → s.sli.lock = .locked →
    s.sli.received = some r → s.sce.live = none → s.sce.fading = none →
    (∀ l, s.dlu.lines.get l = Line.free) → s.swu.crossfade = none →
    let a := r.sample s.sli.map.guitarA
    let mute := if s.engaged then s.sce.mute - 128 else min 32768 (s.sce.mute + 128)
    let out := share (share a mute) s.sce.fade
    ∃ t, exec (.lockedFrame o) s = .next t ∧
      t.sli.outbound.fohL = out ∧ t.sli.outbound.fohR = out ∧ t.sli.outbound.ampFeed = out ∧
      t.sli.outbound.direct = share a s.sce.fade ∧ t.sli.outbound.loopSend = 0 ∧
      t.sce.mute = mute ∧ t.sce.fade = min 32768 (s.sce.fade + 8) ∧
      t.sce.peakL = s.sce.peakL ∧ t.sce.peakR = s.sce.peakR ∧
      (s.sce.mixClips ≤ 65535 → t.sce.mixClips = s.sce.mixClips) ∧ t.sce.clip = s.sce.clip ∧
      t.dlu = s.dlu

/-- R5, R74, R76, R85, R109, R117, R119, R120, R128, R132, R152, R199: a block boundary. In both working
copies every parameter takes one step, every noise gate decides by its peak and its levels, and the position
of an LFO stays within its period; a LIVE line takes the values of the stage that governs it. A preparation
in progress loses one block, a loader that a DISARM has put off may take again, a hold timer whose press was
made before the last frame loses one, the pacing count of a running tuner rises and gives a due record at
256, and every TAIL line is judged by its block peak, its quiet count and its age. The tables, the link, the
channel, the tempo, the cues and the switch unit are kept. The boundary as a step before its events (log
27), that a loader put off by a DISARM may take again at every such step, also that of the DISARM's own
frame (log 40), that a hold timer counts every boundary that follows a frame processed after the press (log
43), and that a gate decides by its levels and its hold as they stand before the step of the parameters but
takes its ramp lengths from behind it (log 15), are the model's choices. -/
def Obligations.BlockBoundaryTaken : Prop :=
  ∀ s : State, s.Settled → s.frame.isOpen = true → s.frame.blockDue = true →
    let decided : Stage → Stage → NoiseGate → NoiseGate := fun st stepped g =>
      let close : Int := max 0 (st.val 0 - st.val 1)
      let keep : GateState → Nat → NoiseGate := fun x hold => { g with st := x, hold := hold, peak := 0 }
      let ramp : GateState → Int → Int → NoiseGate := fun x start len =>
        { g with st := x, start := start, len := len.toNat, k := 0, peak := 0 }
      match g.st with
      | .closed => if st.val 0 ≤ g.peak then ramp .attack g.gain (stepped.val 2) else keep .closed g.hold
      | .attack => if g.peak < close then ramp .release g.gain (stepped.val 4) else keep .attack g.hold
      | .release => if st.val 0 ≤ g.peak then ramp .attack g.gain (stepped.val 2) else keep .release g.hold
      | .hold => if close ≤ g.peak then keep .opened g.hold else keep .hold (g.hold - 1)
      | .opened =>
        if close ≤ g.peak then keep .opened g.hold
        else if 0 < st.val 3 then keep .hold (st.val 3).toNat
        else ramp .release 32768 (stepped.val 4)
    let after : Stage → Stage := fun st =>
      let stepped : Stage := { st with params := st.params.map Param.step }
      let period : Stage → Nat := fun x => 4800000 / (x.val 0).toNat
      match st.st with
      | .gate g => { stepped with st := .gate (decided st stepped g) }
      | .mod mem pos =>
        let fit := if period st = period stepped then pos else pos % period stepped
        { stepped with st := .mod mem fit }
      | _ => stepped
    let bounded : Copy → Copy := fun c => { c with stages := c.stages.map after }
    ∃ t, exec .blockBoundary s = .next t ∧
      t.sce = { s.sce with live := s.sce.live.map bounded, fading := s.sce.fading.map bounded } ∧
      (∀ l, (s.dlu.lines.get l).state = .live →
        let x := s.dlu.lines.get l
        let ofLive := t.sce.live.bind (·.delayOn l)
        let governing := if ofLive.isSome then ofLive else t.sce.fading.bind (·.delayOn l)
        (governing = none → t.dlu.lines.get l = x) ∧
        ∀ st, governing = some st →
          let y : Line := { x with
            feedback := (st.val 6).toNat, wet := (st.val 7).toNat, pan := (st.val 8).toNat
            tail := decide (st.val 9 = 1) }
          let time :=
            if (st.val 2).toNat = 0 then (st.val 3).toNat
            else max 1 (min (s.tck.period * (st.val 4).toNat / (st.val 5).toNat) 98303)
          t.dlu.lines.get l =
            if x.mem = [] then { y with current := time, target := time, held := none, position := 0 }
            else if x.target ≠ x.current then
              { y with held := if time = x.target then none else some time }
            else if time = x.current then y
            else { y with target := time, position := 0 }) ∧
      t.frame = { s.frame with blockDue := false, atBlock := true, tested := false } ∧
      (∀ i, t.stg.slots.get i =
        if (s.stg.slots.get i).state = .preparing then
          { s.stg.slots.get i with remaining := (s.stg.slots.get i).remaining - 1 }
        else s.stg.slots.get i) ∧
      t.stg.armQueue = s.stg.armQueue ∧ t.stg.readyOrder = s.stg.readyOrder ∧
      t.stg.loaderWaits = false ∧
      (∀ f, t.pmn.switches.get f =
        let x := s.pmn.switches.get f
        if x.state = .pressed ∧ x.deferred = true ∧ x.fresh = false then
          { x with hold := x.hold - 1 }
        else x) ∧
      (s.engaged = true ∨ s.tun.mode = .background → t.tun =
        if s.tun.pacing + 1 < 256 then { s.tun with pacing := s.tun.pacing + 1 }
        else { s.tun with pacing := 0, pacingDue := true }) ∧
      (s.engaged = false → s.tun.mode = .off → t.tun = s.tun) ∧
      (∀ l, (s.dlu.lines.get l).state = .tail →
        let x := s.dlu.lines.get l
        let quiet := if x.peak < s.dlu.threshold then x.quiet + 1 else 0
        t.dlu.lines.get l =
          if s.dlu.quietTime ≤ quiet ∨ 3000 * s.dlu.limit ≤ x.age + 1 then
            { x with quiet := quiet, age := x.age + 1, expiry := true }
          else { x with quiet := quiet, age := x.age + 1, peak := 0 }) ∧
      (∀ l, (s.dlu.lines.get l).state = .free → t.dlu.lines.get l = s.dlu.lines.get l) ∧
      t.sli = s.sli ∧ t.cch = s.cch ∧ t.tbm = s.tbm ∧ t.swu = s.swu ∧ t.tck = s.tck ∧ t.csq = s.csq

/-- R85: a RAMP parameter that starts toward a target takes eight steps, one at each block boundary; after
step j it stands at its start plus the rounded j-th eighth of the way, so that the eighth step gives the
target exactly and ends the change. A BOUNDARY parameter takes its value at one boundary. A change that is
still fresh, made after the last frame processed, is not stepped at all: the mark falls with the next frame,
and the first step at the first boundary behind that frame. A parameter without a change is left. A change
replaces one that still waits, also right before the boundary that would have taken that one, which is the
model's reading (log 44). -/
def Obligations.RampReachesItsTarget : Prop :=
  (∀ (p : Param) (start target : Int), p.run = start → p.fresh = false →
    p.change = some (.ramp start target 0) →
    ∀ j, 1 ≤ j → j ≤ 8 →
      (Param.step^[j] p).run = start + ((target - start) * j + 4) / 8 ∧
      (Param.step^[j] p).change = (if j = 8 then none else some (.ramp start target j)) ∧
      ((Param.step^[j] p).run = target ∨ j < 8)) ∧
  (∀ (p : Param) (v : Int), p.fresh = false → p.change = some (.boundary v) →
    p.step = { p with run := v, change := none }) ∧
  (∀ p : Param, p.fresh = true ∨ p.change = none → p.step = p) ∧
  (∀ (kind : StageKind) (i : Nat) (v : Int) (p : Param),
    let started := Param.startChange kind i v p
    let aged := { started with fresh := false }
    started.fresh = true ∧ started.run = p.run ∧ started.set = p.set ∧ started.step = started ∧
    (paramClass kind i = .ramp → aged.step.run = p.run + (v - p.run + 4) / 8) ∧
    (paramClass kind i ≠ .ramp → aged.step.run = v)) ∧
  ∀ c : Copy, c.age = { c with
    stages := c.stages.map fun st => { st with params := st.params.map fun p => { p with fresh := false } } }

/-! ### The loader and crossfades at a block boundary -/

/-- R127, R128, R129, R131, R132: the loader, unless a DISARM has put it off to a later boundary, takes an
eligible slot of the arm queue, a demanded one before any other and otherwise the oldest; with no slot
PREPARING and an eligible one in the queue it chooses one. A PREPARING slot with no block remaining, alone
as the loader leaves it, is the one that completes. If every SHAPE and IR entry its record references is
VALID the slot leaves the queue and enters PREPARING for 2 blocks and one more for every 128 taps; if not,
it becomes EMPTY with an ARM report NOT_PRESENT, and the pending switch that demanded it ends with a SWITCH
report NOT_PRESENT behind that (R138). With no block remaining it enters READY at the front of the ready
order with its image and an ARM report OK. That the image is made from the tables as they stand at
completion is the model's choice (log 25). -/
def Obligations.LoaderPreparesASlot : Prop :=
  ((∀ (g : Stg) (i : SlotNo), g.loaderChoice = some i →
     let eligible : SlotNo → Prop := fun j =>
       (g.slots.get j).state = .queued ∧ (g.slots.get j).fresh = false
     (∀ j, (g.slots.get j).state ≠ .preparing) ∧ g.loaderWaits = false ∧ eligible i ∧
     ∃ front back, g.armQueue = front ++ i :: back ∧
       (((g.slots.get i).demanded = true ∧
           ∀ j ∈ front, eligible j → (g.slots.get j).demanded = false) ∨
         ((∀ j ∈ g.armQueue, eligible j → (g.slots.get j).demanded = false) ∧
           ∀ j ∈ front, ¬ eligible j))) ∧
   (∀ g : Stg, (∀ j, (g.slots.get j).state ≠ .preparing) → g.loaderWaits = false →
     (∃ j ∈ g.armQueue, (g.slots.get j).state = .queued ∧ (g.slots.get j).fresh = false) →
     ∃ i, g.loaderChoice = some i) ∧
   (∀ (g : Stg) (j : SlotNo), (g.slots.get j).state = .preparing → (g.slots.get j).remaining = 0 →
     (∃ i, g.prepared = some i) ∧
     ((∀ k, (g.slots.get k).state = .preparing → k = j) → g.prepared = some j)) ∧
   (∀ s : State, s.Settled → s.stg.loaderWaits = true → exec .loaderTake s = .next s) ∧
   ∀ (i : SlotNo) (n : SceneNo) (s : State), s.Settled → s.frame.isOpen = true →
     s.frame.atBlock = true → s.stg.loaderChoice = some i → (s.stg.slots.get i).scene = some n →
     let t := s.stg.slots.get i
     let record := s.tbm.sceneRecord n
     let valid := (∀ k ∈ record.shapes, s.tbm.valid .shape k = true) ∧
       ∀ k ∈ record.irs, s.tbm.valid .ir k = true
     let taps := record.taps.getD 0
     (valid → exec .loaderTake s = .next { s with
       stg := { s.stg with
         slots := upd s.stg.slots i { t with state := .preparing, remaining := 2 + taps / 128 }
         armQueue := s.stg.armQueue.filter (· ≠ i) } }) ∧
     (¬ valid → t.demanded = false → exec .loaderTake s = .next (({ s with
       stg := { s.stg with
         slots := upd s.stg.slots i StgSlot.vacant
         armQueue := s.stg.armQueue.filter (· ≠ i)
         readyOrder := s.stg.readyOrder.filter (· ≠ i) } } : State).reporting
       [armRecord i t .notPresent])) ∧
     (¬ valid → t.demanded = true → s.SlotsLegal → ∀ p, s.swu.pending = some p →
       p.req.target = some n → exec .loaderTake s = .next (({ s with
         stg := { s.stg with
           slots := upd s.stg.slots i StgSlot.vacant
           armQueue := s.stg.armQueue.filter (· ≠ i)
           readyOrder := s.stg.readyOrder.filter (· ≠ i) }
         swu := { s.swu with pending := none } } : State).reporting
       [armRecord i t .notPresent,
        switchRecord p.req .notPresent s.destination (some n) false false]))) ∧
  (∀ (i : SlotNo) (n : SceneNo) (s : State), s.Settled → s.frame.isOpen = true →
     s.frame.atBlock = true → s.stg.prepared = some i → (s.stg.slots.get i).scene = some n →
     let t := s.stg.slots.get i
     t.state = .preparing ∧ t.remaining = 0 ∧
     exec .preparationComplete s = .next (({ s with
       stg := { s.stg with
         slots := upd s.stg.slots i
           { t with state := .ready, remaining := 0, image := some (s.tbm.image n) }
         readyOrder := i :: s.stg.readyOrder.filter (· ≠ i) } } : State).reporting
       [armRecord i t .ok]))

/-- R68, R69, R109, R113, R116, R119, R120, R139, R140, R143, R145: a pending switch whose boundary flag is
set and whose target is NONE or a READY scene starts at a block boundary. Its slot becomes LIVE without pin
or demand and leaves the ready order, the slot that was LIVE becomes FADING, the working copy becomes the
fading one and a new one is made from the prepared image with every state at its start value, or none for
NONE; the crossfade record takes its length from the code of the override, or else of the scene, or else is
256. A FREE line that the new copy references is bound empty, a LIVE one shared and a TAIL adopted with
their contents, each with the values of the new stage; any other LIVE line becomes a line of the old scene
alone. A crossfade of length 0 completes at once, with its report; there the slots are legal and a line
holds a next time only behind a tap fade in flight. Under FOLLOW the window of a tuner that is not OFF
restarts, and under A, B or OFF the tuner is kept (R201). A test that fails waits for the next boundary. The
test as a step taken once at a boundary is the model's choice (log 24). -/
def Obligations.CrossfadeStarts : Prop :=
  ∀ (p : Pending) (s : State), s.Settled → s.frame.isOpen = true →
    s.frame.atBlock = true → s.frame.tested = false → s.swu.crossfade = none →
    s.swu.pending = some p →
    (p.passed = false ∨ p.fresh = true ∨ (∃ n, p.req.target = some n ∧ (s.stg.holding n = none ∨
        ∃ i, s.stg.holding n = some i ∧ (s.stg.slots.get i).state ≠ .ready)) →
      exec .crossfadeStart s = .next { s with frame := { s.frame with tested := true } }) ∧
    ∀ (slot : Option SlotNo) (image : Option Image), p.passed = true → p.fresh = false →
      (p.req.target = none ∧ slot = none ∧ image = none) ∨
        (∃ n i im, p.req.target = some n ∧ slot = some i ∧ image = some im ∧
          s.stg.holding n = some i ∧ (s.stg.slots.get i).state = .ready ∧
          (s.stg.slots.get i).image = some im) →
      let frames : Nat → Nat := fun c => [0, 64, 128, 256, 512, 1024, 2048].getD c 4096
      let length := match p.req.override, image with
        | some c, _ => frames c
        | none, some im => frames im.record.fadeCode.toNat
        | none, none => 256
      let copy := image.map Copy.fresh
      let given := Line.handed s.tck.period
      let bound : LineNo → Line := fun l =>
        let x := s.dlu.lines.get l
        match x.state, copy.bind (·.delayOn l) with
        | .free, some st => given st { Line.free with state := .live, owner1 := p.req.target }
        | .live, some st => given st { x with owner1 := p.req.target, owner2 := s.liveScene }
        | .tail, some st => given st
          { x with
            state := .live, owner1 := p.req.target, owner2 := none, quiet := 0, age := 0, peak := 0
            expiry := false }
        | .live, none =>
          let left := { x with owner1 := none, owner2 := s.liveScene }
          match s.sce.live.bind (·.delayOn l) with
          | some st => given st left
          | none => left
        | .free, none => x
        | .tail, none => x
      ∃ t, exec .crossfadeStart s = .next t ∧
        (∀ i, slot = some i → t.stg.slots.get i =
          { s.stg.slots.get i with state := .live, pinned := false, demanded := false }) ∧
        t.stg.armQueue = s.stg.armQueue ∧ t.stg.loaderWaits = s.stg.loaderWaits ∧
        t.dlu = { s.dlu with lines := t.dlu.lines } ∧ t.frame = s.frame ∧ t.tbm = s.tbm ∧
        t.sli = s.sli ∧ t.tck = s.tck ∧ t.csq = s.csq ∧ t.pmn = s.pmn ∧
        t.tun = (if s.tun.source = .follow ∧ (s.engaged = true ∨ s.tun.mode = .background) then
          s.tun.restartWindow else s.tun) ∧
        (length ≠ 0 →
          t.swu = { s.swu with
            pending := none
            crossfade := some { length := length, elapsed := 0, served := p.req, reversed := false
                                reversal := none, reversalFresh := false } } ∧
          t.sce = { s.sce with live := copy, fading := s.sce.live } ∧
          (∀ j, s.stg.liveSlot = some j →
            t.stg.slots.get j = { s.stg.slots.get j with state := .fading }) ∧
          (∀ j, slot ≠ some j → s.stg.liveSlot ≠ some j → t.stg.slots.get j = s.stg.slots.get j) ∧
          t.stg.readyOrder = s.stg.readyOrder.filter (fun j => slot ≠ some j) ∧
          (∀ l, t.dlu.lines.get l = bound l) ∧ t.cch = s.cch) ∧
        (length = 0 → s.SlotsLegal → s.InRange →
          t.swu = { s.swu with pending := none } ∧
          t.sce = { s.sce with live := copy, fading := none } ∧
          (∀ j, s.stg.liveSlot = some j →
            t.stg.slots.get j = { s.stg.slots.get j with state := .ready }) ∧
          (∀ j, slot ≠ some j → s.stg.liveSlot ≠ some j → t.stg.slots.get j = s.stg.slots.get j) ∧
          t.stg.readyOrder =
            s.stg.liveSlot.toList ++ s.stg.readyOrder.filter
              (fun j => slot ≠ some j ∧ s.stg.liveSlot ≠ some j) ∧
          (∀ l, t.dlu.lines.get l =
            let x := bound l
            if x.state ≠ .live then x
            else if x.owner1 = none then
              if x.tail = true then
                { x with
                  state := .tail, owner2 := none, held := none, quiet := 0, age := 0, peak := 0
                  expiry := false }
              else Line.free
            else { x with owner2 := none }) ∧
          t.cch = (s.reporting [switchRecord p.req .ok s.liveScene p.req.target false
            (s.sce.live.any Copy.edited)]).cch)

/-- R109, R115, R119, R120, R142, R144: a reversal request held since before the last frame is taken at a
block boundary. The LIVE and FADING roles of slots and copies are exchanged, the elapsed count becomes the
length minus itself, owners 1 and 2 of every LIVE line are exchanged, each takes the values of the stage
that then governs it, and the served request is reported SUPERSEDED. Under FOLLOW the window of a tuner that
is not OFF restarts, and under A, B or OFF the tuner is kept (R201). The from field of the report is the
model's reading (log 12). -/
def Obligations.ReversalExchangesTheParties : Prop :=
  ∀ (x : Crossfade) (r : Request) (s : State), s.Settled → s.frame.isOpen = true →
    s.frame.atBlock = true → s.swu.crossfade = some x → x.reversal = some r →
    x.reversalFresh = false →
    ∃ t, exec .reversal s = .next t ∧
      t.swu = { s.swu with crossfade := some { length := x.length, elapsed := x.length - x.elapsed
                                               served := r, reversed := true, reversal := none
                                               reversalFresh := false } } ∧
      t.sce = { s.sce with live := s.sce.fading, fading := s.sce.live } ∧
      (∀ i, t.stg.slots.get i =
        let y := s.stg.slots.get i
        if y.state = .live then { y with state := .fading }
        else if y.state = .fading then { y with state := .live, pinned := false } else y) ∧
      (∀ l, (s.dlu.lines.get l).state = .live →
        (t.dlu.lines.get l).state = .live ∧
        (t.dlu.lines.get l).owner1 = (s.dlu.lines.get l).owner2 ∧
        (t.dlu.lines.get l).owner2 = (s.dlu.lines.get l).owner1 ∧
        (t.dlu.lines.get l).mem = (s.dlu.lines.get l).mem ∧
        t.dlu.lines.get l = ({ s.sce with live := s.sce.fading, fading := s.sce.live } : Sce).handedLine
          s.tck.period l { s.dlu.lines.get l with
            owner1 := (s.dlu.lines.get l).owner2, owner2 := (s.dlu.lines.get l).owner1 }) ∧
      (∀ l, (s.dlu.lines.get l).state ≠ .live → t.dlu.lines.get l = s.dlu.lines.get l) ∧
      t.cch = (s.reporting
        [switchRecord x.served .superseded s.fadingScene x.served.target false false]).cch ∧
      t.tbm = s.tbm ∧ t.sli = s.sli ∧ t.tck = s.tck ∧ t.csq = s.csq ∧ t.pmn = s.pmn ∧
      t.tun = if s.tun.source = .follow ∧ (s.engaged = true ∨ s.tun.mode = .background) then
          s.tun.restartWindow else s.tun

/-- R109, R116, R119, R120, R141, R142, R143, R144: a crossfade whose elapsed count has reached its length,
with no reversal request held since before the last frame, completes at a block boundary. The FADING slot
enters READY at the front of the ready order, the fading copy is gone, a line of the old scene alone becomes
a TAIL or FREE by its tail flag, any other LIVE line takes the values of the stage that then governs it, and
the served request is reported OK with the edits flag of the lost copy. A reversal request made too late to
be taken ends here with a SWITCH report SUPERSEDED behind, which is the model's choice (log 11). -/
def Obligations.CrossfadeCompletes : Prop :=
  ∀ (x : Crossfade) (s : State), s.Settled → s.frame.isOpen = true → s.frame.atBlock = true →
    s.swu.crossfade = some x → x.length ≤ x.elapsed →
    x.reversal = none ∨ x.reversalFresh = true →
    ∃ t, exec .crossfadeComplete s = .next t ∧
      t.swu = { s.swu with crossfade := none } ∧ t.sce = { s.sce with fading := none } ∧
      (s.stg.fadingSlot = none → t.stg = s.stg) ∧
      (∀ i, s.stg.fadingSlot = some i →
        let y := s.stg.slots.get i
        t.stg = { s.stg with
          slots := upd s.stg.slots i { y with state := .ready }
          readyOrder := i :: s.stg.readyOrder.filter (· ≠ i) }) ∧
      (∀ l, (s.dlu.lines.get l).state = .live →
        let y := s.dlu.lines.get l
        (y.owner1 = none → y.tail = false → t.dlu.lines.get l = Line.free) ∧
        (y.owner1 = none → y.tail = true → t.dlu.lines.get l =
          { y with
            state := .tail, owner2 := none, held := none, quiet := 0, age := 0, peak := 0
            expiry := false }) ∧
        (y.owner1 ≠ none → (t.dlu.lines.get l).state = .live ∧
          (t.dlu.lines.get l).owner1 = y.owner1 ∧ (t.dlu.lines.get l).owner2 = none ∧
          (t.dlu.lines.get l).mem = y.mem ∧
          t.dlu.lines.get l = ({ s.sce with fading := none } : Sce).handedLine s.tck.period l
            { y with owner2 := none })) ∧
      (∀ l, (s.dlu.lines.get l).state ≠ .live → t.dlu.lines.get l = s.dlu.lines.get l) ∧
      t.cch = (s.reporting (switchRecord x.served .ok s.fadingScene s.liveScene x.reversed
        (s.sce.fading.any Copy.edited) :: x.reversal.toList.map fun r =>
          switchRecord r .superseded s.liveScene r.target false false)).cch ∧
      t.tbm = s.tbm ∧ t.sli = s.sli ∧ t.tck = s.tck ∧ t.csq = s.csq ∧ t.pmn = s.pmn ∧
      t.tun = s.tun

/-! ### Ends of ramps, fades and tails -/

/-- R73, R74, R108, R117, R121: a noise gate whose hold count has reached 0 enters RELEASE from 32,768
with the running release length, an ATTACK in its last frame becomes OPEN, and a RELEASE whose gain has reached 0
becomes CLOSED. A tap fade whose position has reached 1,024 ends with the target as the current time,
and a held next time becomes the target of a new fade; a tail judged expired at a block boundary takes
the FREE values. Only that stage or that line changes. The RELEASE behind a hold as a step of its own, with
its length as stepped at the boundary (log 15), and the end of a tail as a step behind the boundary that
judged it (log 27) are the model's choices. -/
def Obligations.RampsFadesAndTailsEnd : Prop :=
  (∀ (role : CopyRole) (k : Fin 10) (c : Copy) (st : Stage) (g : NoiseGate) (s : State),
     s.sli.resetHeld = false → s.sce.copy role = some c → c.stages[k.val]? = some st →
     st.st = .gate g →
     let put : NoiseGate → State := fun g' =>
       let c' := { c with stages := c.stages.set k.val { st with st := .gate g' } }
       { s with sce := match role with
         | .live => { s.sce with live := some c' }
         | .fading => { s.sce with fading := some c' } }
     (g.st = .hold → g.hold = 0 → exec (.noiseGateHoldEnd role k) s = .next
       (put { g with st := .release, start := 32768, len := (st.val 4).toNat, k := 0 })) ∧
     (g.st = .attack → 0 < g.k → 16 * g.len ≤ g.k →
       exec (.noiseGateRampEnd role k) s = .next (put { g with st := .opened })) ∧
     (g.st = .release → 0 < g.k → g.gain = 0 →
       exec (.noiseGateRampEnd role k) s = .next (put { g with st := .closed }))) ∧
  (∀ (l : LineNo) (s : State),
     let x := s.dlu.lines.get l
     let put : Line → State := fun y => { s with dlu := { s.dlu with lines := upd s.dlu.lines l y } }
     (s.sli.resetHeld = false → x.state ≠ .free → 1024 ≤ x.position →
       exec (.tapFadeEnd l) s = .next (put
         { x with current := x.target, target := x.held.getD x.target, held := none
                  position := 0 })) ∧
     (s.Settled → s.frame.isOpen = true → s.frame.atBlock = true → x.state = .tail →
       x.expiry = true → exec (.tailExpiry l) s = .next (put
         { state := .free, owner1 := none, owner2 := none, current := 0, target := 0, held := none
           position := 0, feedback := 0, wet := 0, pan := 0, tail := false, quiet := 0, age := 0
           peak := 0, mem := [], expiry := false })))

/-- R73, R75–R79, R96–R102, R104, R106: the arithmetic of a frame. The shaper, the sag offset, the envelope,
the level step, the biquad and the cabinet FIR give the floors and clamps of their rules, with one clip for
each clamp that changes a value; the shaper lies between the two points of its segment and the envelope
between the old one and the magnitude. Each stage kind makes its processed signal, its state and its clips of
its input by them: the noise gate by the gain of its state or ramp, the MOD stage by the tap that its LFO
places in its memory. The crossfade mix is the floor of its quotient, lies between its two samples, inclusive,
gives the outgoing sample at weight 0 and the incoming one at weight 32,768, and is not clamped. -/
def Obligations.StageAndMixArithmetic : Prop :=
  let clamp : Int → Int := fun x => max (-8388608) (min x 8388607)
  let clip : Int → Nat := fun x => if clamp x = x then 0 else 1
  (∀ a b w : Int, 0 ≤ w → w ≤ 32768 →
    crossMix a b w = (a * w + b * (32768 - w) + 16384) / 32768 ∧
    min a b ≤ crossMix a b w ∧ crossMix a b w ≤ max a b ∧
    crossMix a b 0 = b ∧ crossMix a b 32768 = a) ∧
  (∀ (points : Nat → Int) (gain sag x : Int),
    let v := (x * gain + 128) / 256 - sag
    let u := clamp v + 8388608
    let k := (u / 32768).toNat
    let p := points k
    let q := points (k + 1)
    let y := shaper points gain sag x
    y.val = p + ((q - p) * (u - 32768 * k) + 16384) / 32768 ∧ y.clips = clip v ∧
      min p q ≤ y.val ∧ y.val ≤ max p q) ∧
  (∀ e s : Int, sagOffset e s = (e * s + 16384) / 32768) ∧
  (∀ ka kr e y : Int, 0 ≤ ka → ka ≤ 32767 → 0 ≤ kr → kr ≤ 32767 →
    let a : Int := min 8388607 y.natAbs
    envelope ka kr e y = e + ((a - e) * (if e < a then ka else kr) + 16384) / 32768 ∧
      min e a ≤ envelope ka kr e y ∧ envelope ka kr e y ≤ max e a) ∧
  (∀ y level : Int,
    let z := (y * level + 16384) / 32768
    (levelStep y level).val = clamp z ∧ (levelStep y level).clips = clip z) ∧
  (∀ (c : Coeffs) (h : Biquad) (x : Int),
    let acc := c.b0 * x + c.b1 * h.x1 + c.b2 * h.x2 - c.a1 * h.y1 - c.a2 * h.y2
    let y := (acc + 2097152) / 4194304
    (biquad c h x).1.val = clamp y ∧ (biquad c h x).1.clips = clip y ∧
      (biquad c h x).2 = { x1 := x, x2 := h.x1, y1 := clamp y, y2 := h.y1 }) ∧
  (∀ (taps : List Word24) (hist : List Int) (x : Int),
    let acc := ((List.range taps.length).map fun k =>
      (taps.getD k 0).toInt * (x :: hist).getD k 0).sum
    let y := (acc + 4194304) / 8388608
    (fir taps hist x).val = clamp y ∧ (fir taps hist x).clips = clip y) ∧
  ∀ (st : Stage) (f : FrameIn) (taps : List Word24) (x : Int),
    let scaled : Int → Int → Int := fun y g => (y * g + 16384) / 32768
    let level : Clipped Int → Int → Int := fun y g => (levelStep y.val g).val
    let filter : Nat → Biquad → Int → Clipped Int × Biquad := fun i =>
      biquad { b0 := st.val i, b1 := st.val (i + 1), b2 := st.val (i + 2), a1 := st.val (i + 3)
               a2 := st.val (i + 4) }
    (∀ g, st.kind = .gate → st.st = .gate g →
      let ramp : Int → Int := fun dest =>
        if 16 * g.len ≤ g.k + 1 then dest
        else g.start + ((dest - g.start) * (g.k + 1) + 8 * g.len) / (16 * g.len)
      let gain := match g.st with
        | .opened => 32768 | .hold => 32768 | .closed => 0
        | .attack => ramp 32768 | .release => ramp 0
      let k := match g.st with
        | .opened => g.k | .hold => g.k | .closed => g.k
        | .attack => g.k + 1 | .release => g.k + 1
      st.process f taps x =
        ⟨.gate { g with peak := max g.peak x.natAbs, gain := gain, k := k }, scaled x gain, 0, 0⟩) ∧
    (∀ h, st.kind = .eq → st.st = .eq h →
      let y := filter 0 h x
      st.process f taps x = ⟨.eq y.2, y.1.val, y.1.clips, 0⟩) ∧
    (st.kind = .drive → st.st = .drive →
      let y := shaper (f.shape st) (st.val 1) 0 x
      st.process f taps x =
        ⟨.drive, level y (st.val 2), y.clips + (levelStep y.val (st.val 2)).clips, 0⟩) ∧
    (∀ pre e t1 t2 t3, st.kind = .amp → st.st = .amp pre e t1 t2 t3 →
      let x1 := filter 0 pre x
      let y := shaper (f.shape st) (st.val 6) (sagOffset e (st.val 7)) x1.1.val
      let y1 := filter 10 t1 y.val
      let y2 := filter 15 t2 y1.1.val
      let y3 := filter 20 t3 y2.1.val
      st.process f taps x =
        ⟨.amp x1.2 (envelope (st.val 8) (st.val 9) e y.val) y1.2 y2.2 y3.2, level y3.1 (st.val 25),
          x1.1.clips + y.clips + y1.1.clips + y2.1.clips + y3.1.clips
            + (levelStep y3.1.val (st.val 25)).clips, 0⟩) ∧
    (∀ hist, st.kind = .cab → st.st = .cab hist →
      let y := fir taps hist x
      st.process f taps x = ⟨.cab ((x :: hist).take (taps.length - 1)), level y (st.val 2),
        y.clips + (levelStep y.val (st.val 2)).clips, 0⟩) ∧
    (∀ mem pos, st.kind = .mod → st.st = .mod mem pos →
      let n := 4800000 / (st.val 0).toNat
      let t : Int := (131072 * (min pos (n - pos) : Nat) + n) / (2 * n)
      let d := max 256 (min (256 * st.val 2 + (256 * st.val 1 * t + 16384) / 32768) 524032)
      let sample : Int → Int := fun j => mem.getD (j - 1).toNat 0
      let i := d / 256
      let tap := sample i + ((sample (i + 1) - sample i) * (d - 256 * i) + 128) / 256
      let written := x + scaled tap (st.val 4)
      st.process f taps x = ⟨.mod ((clamp written :: mem).take 2048)
        (if pos + 1 < n then pos + 1 else 0), x + scaled (tap - x) (st.val 3), clip written, 0⟩) ∧
    (st.kind = .delay → st.st = .delay → st.process f taps x = ⟨.delay, x, 0, 0⟩) ∧
    (st.kind = .loop → st.st = .loop →
      let s := scaled x (st.val 0)
      let r := scaled f.ret (st.val 1)
      st.process f taps x =
        ⟨.loop, x + scaled (clamp r - x) (st.val 2), clip s + clip r, clamp s⟩) ∧
    (st.kind = .volume → st.st = .volume →
      let z := scaled x (st.val 0)
      st.process f taps x = ⟨.volume, clamp z, clip z, 0⟩)

/-! ### Footswitches -/

/-- R88, R148, R151, R154, R155, R157, R159: a press that comes before the other footswitch events of its
frame, which wait behind it. With a hold gate in its entry it is deferred with a hold time of 150 blocks a
unit; with a press gate alone that gate is dispatched with event 0 and the foot down, and one at or above
the gate limit gives a GATE report LIMIT; with neither nothing is dispatched. The PEDAL report comes first,
where reporting is on. Expression changes that stand directly behind the press are carried out with it, in
order and behind its dispatch, each with its PEDAL report; where the dispatch has called for a cue event,
they wait for it (log 17). A dispatch by a footswitch is a dispatch of source FOOT with tag 0; its GATE
report follows the reports of the action, and none is queued for OK, ACCEPTED and ALREADY, nor, with pedal
reporting off, for SKIPPED. The list in which confirmed events wait is the model's own (log 31). -/
def Obligations.FootswitchPressed : Prop :=
  (∀ (f : SwitchNo) (down : Bool) (event : Nat) (g : GateNo) (s : State),
    let d : Dispatch := { source := .foot, switch := some f, down := down, event := event, tag := 0 }
    let gate := s.tbm.gate g
    let reached :=
      if s.tbm.gateLimit ≤ g ∨ gate.present = false ∨ 1 < gate.level
          ∨ s.conditionHolds gate.condition = true then none
      else gate.elseGate
    let r := s.dispatch d g
    let silent := r.2 = .ok ∨ r.2 = .accepted ∨ r.2 = .already ∨
      (r.2 = .skipped ∧ s.pmn.reporting = false)
    (silent → s.footDispatch f down event g = r.1) ∧
    (¬ silent → s.footDispatch f down event g = { r.1 with cch := { r.1.cch with
      outbox := r.1.cch.outbox ++ [gateRecord f event g reached r.2] } })) ∧
  (∀ (f : SwitchNo) (behind : List PedalEvent) (s : State), s.Settled → s.frame.isOpen = true →
    s.pmn.events = .press f :: behind → (∀ b v es, behind ≠ .expression b v :: es) →
    let x := s.pmn.switches.get f
    let pedal : Bool → List Record := fun deferred =>
      if s.pmn.reporting then [pedalRecord 0 f deferred] else []
    let pressed : Footswitch → State := fun y =>
      { s with pmn := { s.pmn with switches := upd s.pmn.switches f y, events := behind } }
    (∀ g, s.tbm.holdGate f = some g → exec (.footswitchPress f) s = .next
      ((pressed { x with state := .pressed, deferred := true, hold := 150 * s.tbm.holdCode f
                         fresh := true }).reporting (pedal true))) ∧
    (s.tbm.holdGate f = none → s.tbm.pressGate f = none → exec (.footswitchPress f) s = .next
      ((pressed { x with state := .pressed }).reporting (pedal false))) ∧
    (s.tbm.holdGate f = none → ∀ g, s.tbm.pressGate f = some g →
      (∃ t, exec (.footswitchPress f) s = .next t ∧
        t.pmn = { s.pmn with
          switches := upd s.pmn.switches f { x with state := .pressed }, events := behind } ∧
        t.sli = s.sli ∧ t.cch.fifo = s.cch.fifo) ∧
      (let base := pressed { x with state := .pressed }
       let noted : State := { base with cch := { s.cch with outbox := pedal false } }
       exec (.footswitchPress f) s = .next (noted.footDispatch f true 0 g).deliver) ∧
      (s.tbm.gateLimit ≤ g → exec (.footswitchPress f) s = .next
        ((pressed { x with state := .pressed }).reporting (pedal false ++
          [{ kind := .gate, tag := 0, code := .limit
             body := [payload (g.val <<< 16 + 255 <<< 8 + 1 <<< 6 + f.val)], ends := false }]))))) ∧
  ∀ (f : SwitchNo) (changes : List (Bool × Nat)) (rest : List PedalEvent) (s : State), s.Settled →
    s.frame.isOpen = true →
    let behind := changes.map (fun c => PedalEvent.expression c.1 c.2) ++ rest
    s.pmn.events = .press f :: behind → (∀ b v es, rest ≠ .expression b v :: es) →
    let x := s.pmn.switches.get f
    let noted : Footswitch → Bool → State := fun y deferred =>
      { s with
        pmn := { s.pmn with switches := upd s.pmn.switches f y, events := behind }
        cch := { s.cch with
          outbox := if s.pmn.reporting then [pedalRecord 0 f deferred] else [] } }
    let ends : State → Prop := fun u =>
      exec (.footswitchPress f) s = .next (u.thenChanges changes rest).deliver
    (∀ g, s.tbm.holdGate f = some g → ends (noted
      { x with state := .pressed, deferred := true, hold := 150 * s.tbm.holdCode f, fresh := true } true)) ∧
    (s.tbm.holdGate f = none →
      (s.tbm.pressGate f = none → ends (noted { x with state := .pressed } false)) ∧
      ∀ g, s.tbm.pressGate f = some g →
        ends ((noted { x with state := .pressed } false).footDispatch f true 0 g))

/-- R152, R155: the lowest-numbered footswitch whose hold timer has run out at a block boundary
takes its hold event: it is HELD, its press is no longer deferred, and the hold gate of its entry,
if there is one now, is dispatched with event 1 and the foot down, behind the PEDAL report where reporting
is on. The boundary as a step before its events is the model's choice (log 27). -/
def Obligations.HoldEventTaken : Prop :=
  ∀ (f : SwitchNo) (s : State), s.Settled → s.frame.isOpen = true → s.frame.atBlock = true →
    let x := s.pmn.switches.get f
    let due : SwitchNo → Prop := fun j =>
      (s.pmn.switches.get j).state = .pressed ∧ (s.pmn.switches.get j).deferred = true ∧
        (s.pmn.switches.get j).hold = 0
    due f → (∀ j, j < f → ¬ due j) →
    (∃ t, exec (.holdEvent f) s = .next t ∧
      t.pmn = { s.pmn with
        switches := upd s.pmn.switches f { x with deferred := false, state := .held } } ∧
      t.sli = s.sli ∧ t.cch.fifo = s.cch.fifo) ∧
    (∀ g, s.tbm.holdGate f = some g →
      let noted : State :=
        { s with
          pmn := { s.pmn with
            switches := upd s.pmn.switches f { x with deferred := false, state := .held } }
          cch := { s.cch with
            outbox := if s.pmn.reporting then [pedalRecord 1 f false] else [] } }
      exec (.holdEvent f) s = .next (noted.footDispatch f true 1 g).deliver) ∧
    (s.tbm.holdGate f = none → exec (.holdEvent f) s = .next
      (({ s with pmn := { s.pmn with
          switches := upd s.pmn.switches f { x with deferred := false, state := .held } } } :
        State).reporting (if s.pmn.reporting then [pedalRecord 1 f false] else [])))

/-- R88, R148, R153, R154, R155, R166: a release that comes before the other footswitch events of its frame,
which wait behind it, returns the switch to RELEASED. An entry it owns on top of the return stack is popped,
and its saved scene requested unless the pending switch is already bound for it; one below the top is
removed, and its saved scene passes to the entry above. A HELD switch without an entry dispatches nothing; a
short press of a deferred switch dispatches the press gate (event 0) behind the owner release, and a plain
release of a switch that owns no entry the release gate (event 2), both with the foot up. Expression changes
that stand directly behind the release are carried out with it, in order and behind its dispatch, each with
its PEDAL report; where the dispatch has called for a cue event, they wait for it (log 17). -/
def Obligations.FootswitchReleased : Prop :=
  (∀ (f : SwitchNo) (behind : List PedalEvent) (s : State), s.Settled → s.frame.isOpen = true →
    s.pmn.events = .release f :: behind → (∀ b v es, behind ≠ .expression b v :: es) →
    let x := s.pmn.switches.get f
    let pedal := if s.pmn.reporting then [pedalRecord 2 f false] else []
    let released : State :=
      { s with pmn := { s.pmn with
          switches := upd s.pmn.switches f { x with state := .released, deferred := false, hold := 0 }
          events := behind } }
    (∃ t, exec (.footswitchRelease f) s = .next t ∧ t.pmn = released.pmn ∧ t.sli = s.sli ∧
      t.cch.fifo = s.cch.fifo) ∧
    ((∀ e ∈ s.swu.stack, e.owner ≠ some f) →
      x.state = .held ∨
        (x.state = .pressed ∧ x.deferred = true ∧ s.tbm.pressGate f = none) ∨
        (x.state = .pressed ∧ x.deferred = false ∧ s.tbm.releaseGate f = none) →
      exec (.footswitchRelease f) s = .next (released.reporting pedal)) ∧
    ∀ es e p, s.swu.stack = es ++ [e] → e.owner = some f → e.reason = .momentary →
      s.swu.pending = some p → p.req.target = e.saved → x.deferred = false →
      exec (.footswitchRelease f) s = .next
        (({ released with swu := { s.swu with stack := es } } : State).reporting pedal)) ∧
  ∀ (f : SwitchNo) (changes : List (Bool × Nat)) (rest : List PedalEvent) (s : State), s.Settled →
    s.frame.isOpen = true →
    let behind := changes.map (fun c => PedalEvent.expression c.1 c.2) ++ rest
    s.pmn.events = .release f :: behind → (∀ b v es, rest ≠ .expression b v :: es) →
    let x := s.pmn.switches.get f
    let short := x.state = .pressed ∧ x.deferred = true
    let gone : State → Prop := fun u =>
      exec (.footswitchRelease f) s = .next (u.thenChanges changes rest).deliver
    let noted : State :=
      { s with
        pmn := { s.pmn with
          switches := upd s.pmn.switches f { x with state := .released, deferred := false, hold := 0 }
          events := behind }
        cch := { s.cch with outbox := if s.pmn.reporting then [pedalRecord 2 f false] else [] } }
    let removed : List StackEntry → StackEntry → State := fun es e =>
      { noted with
        swu := { s.swu with stack := es }
        tun := if e.reason = .tuner ∧ (∀ e' ∈ es, e'.reason ≠ .tuner) ∧ s.tun.mode = .off then
            { s.tun.restartWindow with pacingDue := false }
          else s.tun }
    let ends : State → Prop := fun owned =>
      (short → ∀ g, s.tbm.pressGate f = some g → gone (owned.footDispatch f false 0 g)) ∧
      (¬ short ∨ s.tbm.pressGate f = none → gone owned)
    ((∀ e ∈ s.swu.stack, e.owner ≠ some f) →
      (short → ∀ g, s.tbm.pressGate f = some g → gone (noted.footDispatch f false 0 g)) ∧
      (x.state = .pressed → x.deferred = false → ∀ g, s.tbm.releaseGate f = some g →
        gone (noted.footDispatch f false 2 g)) ∧
      (x.state = .held ∨ (short ∧ s.tbm.pressGate f = none) ∨
        (x.state = .pressed ∧ x.deferred = false ∧ s.tbm.releaseGate f = none) → gone noted)) ∧
    (∀ es e, s.swu.stack = es ++ [e] → e.owner = some f →
      ends (if s.swu.pending.any (fun p => p.req.target == e.saved) = true then removed es e
        else ((removed es e).switchRequest
          { target := e.saved, source := .foot, quantize := .none, override := none, gate := none
            owner := some f, tag := 0 }).1)) ∧
    ∀ es e a es' z, s.swu.stack = es ++ e :: a :: es' → e.owner = some f →
      (∀ e' ∈ es, e'.owner ≠ some f) → (a :: es').getLast? = some z → z.owner ≠ some f →
      ends (removed (es ++ { a with saved := e.saved } :: es') e)

/-! ### The tempo clock, the click and the tuner -/

/-- R136, R171, R172, R179, R180, R184, R185, R188, R190: the rise of the phase that brings it to the period
raises an advancing beat boundary. The phase becomes 0, the beat moves on or returns to 1, and the pending
switch latches the boundary; behind a block boundary of the same frame it then waits for the next one (log
27). In IDLE a start that waits with a count-in falls due at a bar boundary; in COUNT_IN the bars left are
counted at one, and the end of the count-in falls due at 0. A held operation falls due, and else a RUNNING
or VAMPING cue counts one beat and falls due at 0; a HELD one is left, and so is one with no beat remaining,
which waits for ADVANCE. Where no cue event is due, a burst starts by the click mode and the sequencer,
accented on beat 1. A rise that was due and no longer reaches the period, because a command of the same
frame has raised it, is a rise alone. The split of the phase's rise and of the cue events into steps of
their own is the model's choice (log 18, log 17). -/
def Obligations.BeatBoundaryTaken : Prop :=
  (∀ s : State, s.Settled → s.frame.isOpen = true → s.frame.riseDue = true →
    s.tck.phase + 1 < s.tck.period →
    exec .beatBoundary s = .next { s with
      tck := { s.tck with phase := s.tck.phase + 1 }
      frame := { s.frame with riseDue := false } }) ∧
  ∀ s : State, s.Settled → s.frame.isOpen = true → s.frame.riseDue = true →
    s.tck.period ≤ s.tck.phase + 1 →
    let beat := if s.tck.meter ≤ s.tck.beat then 1 else s.tck.beat + 1
    ∃ t, exec .beatBoundary s = .next t ∧ t.frame = { s.frame with riseDue := false } ∧
      t.tck.phase = 0 ∧ t.tck.beat = beat ∧ t.tck.period = s.tck.period ∧
      t.tck.meter = s.tck.meter ∧ t.tck.tapHistory = s.tck.tapHistory ∧
      s.BoundaryRaised True beat t ∧
      t.tbm = s.tbm ∧ t.stg = s.stg ∧ t.sce = s.sce ∧ t.dlu = s.dlu ∧ t.pmn = s.pmn ∧
      t.tun = s.tun ∧ t.cch = s.cch ∧ t.sli = s.sli

/-- R178, R194, R196, R199: at position 480 a burst ends; after 4,800 measured frames without a crossing
the period list, the last crossing and the reading are emptied and the count starts again; a pacing
count that has reached 256 raises the TUNE record of the reading, but none once the tuner is OFF
(log 30). Nothing else changes.
R195: the effective source follows its setting, and under FOLLOW the input select of the LIVE slot's
image. R196: a measured sample above 0, with armed set and a previous sample there, takes a crossing, whose
distance from the last one joins the period list; a sample at or below −8,192 arms. R197: four periods are
judged: an unstable window leaves the reading, one out of range makes it NO_PITCH, any other gives a PITCH.
R198: note, cents and frequency of the PITCH. -/
def Obligations.ClickAndTunerEvents : Prop :=
  (∀ (p x : Int) (t : Tun),
    let step : Tun → Tun := fun u => { u with previous := some x, index := t.index + 1 }
    (¬ (t.previous.isSome = true ∧ t.armed = true ∧ 0 < x) → t.measure x = step
      { t with armed := t.armed || decide (x ≤ -8192), silence := t.silence + 1 }) ∧
    (t.previous = some p → t.armed = true → 0 < x →
      let offset := (512 * (-p) + (x - p)) / (2 * (x - p))
      let time := 256 * ((t.index : Int) - 1) + offset
      let crossed : Tun := { t with
        armed := false, lastCross := some time, silence := 0
        periods := match t.lastCross with
          | none => t.periods
          | some l => ((t.periods ++ [time - l]).reverse.take 4).reverse }
      (crossed.periods.length ≠ 4 → t.measure x = step crossed) ∧
      ∀ a b c d, crossed.periods = [a, b, c, d] →
        let sum := a + b + c + d
        let reading :=
          if sum < (max (max a b) (max c d) - min (min a b) (min c d)) * 128 then t.reading
          else if sum < 30720 ∨ 2457600 < sum then none
          else some (pitchOf sum.toNat t.reference)
        t.measure x = step { crossed with reading := reading })) ∧
  (∀ sum r : Nat, 30720 ≤ sum → sum ≤ 2457600 → 430 ≤ r → r ≤ 450 →
    let x : ℝ := 1200 * Real.logb 2 (49152000 / sum / r)
    let n : ℤ := ⌊x / 100 + 1 / 2⌋
    pitchOf sum r =
      { note := (max 0 (min 95 (n + 57))).toNat, cents := ⌊x - 100 * n + 1 / 2⌋
        freq := (1572864000 + sum) / (2 * sum) }) ∧
  (∀ s : State,
    s.sourceIsB = match s.tun.source with
      | .a => false
      | .b => true
      | .follow =>
        match s.stg.liveSlot with
        | none => false
        | some i => (s.stg.slots.get i).image.any fun im => im.record.inputSelect == 1) ∧
  ∀ s : State,
    (s.sli.resetHeld = false → s.tck.burst ≠ none → 480 ≤ s.tck.burstPos →
      exec .clickBurstEnd s = .next { s with tck := { s.tck with burst := none } }) ∧
    (s.sli.resetHeld = false → 4800 ≤ s.tun.silence →
      exec .tunerSilence s = .next { s with tun := { s.tun with
        periods := [], lastCross := none, reading := none, silence := 0 } }) ∧
    (s.Settled → s.frame.isOpen = true → s.tun.pacingDue = true →
      let quiet : State := { s with tun := { s.tun with pacingDue := false } }
      let tune : List Word24 → Record := fun body =>
        { kind := .tune, tag := 0, code := .ok, body := body, ends := false }
      let on := s.engaged = true ∨ s.tun.mode = .background
      (¬ on → exec .tunePacingExpiry s = .next quiet) ∧
      (on → s.tun.reading = none →
        exec .tunePacingExpiry s = .next (quiet.reporting [tune [0, 0]])) ∧
      (on → ∀ p, s.tun.reading = some p →
        exec .tunePacingExpiry s = .next (quiet.reporting
          [tune [payload (1 <<< 23 + (if s.engaged then 1 <<< 22 else 0)
                   + (if s.sourceIsB then 1 <<< 21 else 0) + p.note <<< 8
                   + (p.cents % 256).toNat),
                 payload p.freq]])))

/-! ### Cue events -/

/-- R119, R173, R179, R180, R185, R186, R187, R191: how a waiting start begins. With count-in 0 it loads its
first record at a block boundary; with count-in k it enters COUNT_IN with k bars left at a bar boundary, its
tempo is applied, and at the end of the count-in the first record is loaded. Loading applies the record's
tempo, sets the current index, the remaining beats and the state RUNNING, makes the base switch of the
record, clears the cue pins and arms the scene of the look-ahead, and reports LOADED with the outcomes of
the switch and of the look-ahead. The mark of a due cue event, and that an expression change of the frame
waits behind the event, are the model's choices (log 17). -/
def Obligations.WaitingStartBegins : Prop :=
  ∀ s : State,
    (s.Settled → s.frame.isOpen = true → s.frame.atBlock = true →
      ∀ w, s.csq.waiting = some w → w.countIn = 0 → w.fresh = false → s.csq.state = .idle →
      ∃ t, exec .cueListBegin s = .next t ∧ s.Loads w.start t ∧ t.csq.waiting = none ∧
        t.csq.list = w.list ∧ t.csq.tag = s.csq.tag ∧ t.sce = s.sce ∧ t.pmn = s.pmn) ∧
    (s.sli.resetHeld = false → s.csq.due = some .countInStart →
      ∀ w, s.csq.waiting = some w → s.csq.state = .idle → s.cch.outbox = [] →
      let tempo := (s.tbm.cue w.start).tempo
      ∃ t, exec .countInStart s = .next t ∧
        t.csq = { s.csq with
          waiting := none, list := w.list, state := .countIn, barsLeft := w.countIn
          current := some w.start, lookAhead := none, due := none } ∧
        (s.NoChangeWaits → t.cch = (s.reporting [cueRecord s.csq.tag .ok 0 0 w.list w.start
          (s.tbm.cue w.start).scene 0 false w.countIn]).cch) ∧
        t.tck.burstPos = 0 ∧
        t.tck.burst = some (if s.tck.beat = 1 then .accent else .normal) ∧
        (tempo = 0 → t.tck.period = s.tck.period ∧ t.tck.phase = s.tck.phase ∧
          t.tck.tapOpen = s.tck.tapOpen ∧ t.tck.tapHistory = s.tck.tapHistory) ∧
        (tempo ≠ 0 → t.tck.phase = 0 ∧ t.tck.tapOpen = false ∧ t.tck.tapHistory = [] ∧
          t.tck.period = (288000000 + max 2000 (min tempo 24000) / 2) / max 2000 (min tempo 24000)) ∧
        (tempo = 0 ∨ s.tck.phase = 0 → t.swu = s.swu) ∧ t.stg = s.stg ∧ t.tbm = s.tbm) ∧
    (s.sli.resetHeld = false → s.csq.due = some .countInEnd → ∀ i, s.csq.current = some i →
      s.csq.state = .countIn →
      ∃ t, exec .countInEnd s = .next t ∧ s.Loads i t ∧ t.csq.list = s.csq.list ∧
        t.csq.tag = s.csq.tag ∧ s.ClickedBehindEvent t)

/-- R54, R173, R179, R180, R186, R187, R188, R189, R190, R191: how a cue ends. At remaining 0, or by a held
ADVANCE, the residue is written where its flag is set, and the next record is loaded if CONTINUE is set and
there is one: its tempo, its base switch, the cue pins and the look-ahead, and the LOADED report; otherwise
the list ends: the cue pins are cleared and the LIST_END report carries the last record reached. The click
of the boundary is judged behind it. A held SKIP passes over the next record without a residue. A vamp takes
its length again. A held operation is cleared either way. An expression change of the frame that waits
behind the event (R148) is carried out with it. The mark of a due cue event with the place of such a change
behind it, and the beats that the LIST_END report carries, are the model's choices (log 17, log 16). -/
def Obligations.CueEndsAndFollows : Prop :=
  ∀ (i : Nat) (s : State), s.sli.resetHeld = false → s.cch.outbox = [] → s.csq.current = some i →
    s.csq.state ≠ .idle → s.csq.state ≠ .countIn →
    let q := s.tbm.cue i
    let loaded : Nat → State → Prop := fun j t =>
      ({ s with tbm := t.tbm } : State).Loads j t ∧ s.ClickedBehindEvent t ∧
      t.csq.heldOp = none ∧ t.csq.due = none ∧ t.csq.list = s.csq.list ∧ t.csq.tag = s.csq.tag
    let ended : Nat → Nat → State → Prop := fun j reason t =>
      t.csq = { s.csq with
        state := .idle, current := none, lookAhead := none, heldOp := none, due := none } ∧
      s.ClickedBehindEvent t ∧ t.swu = s.swu ∧ t.dlu = s.dlu ∧ t.tun = s.tun ∧ t.sli = s.sli ∧
      t.stg = { s.stg with slots := vmap (fun x => { x with cuePin := false }) s.stg.slots } ∧
      (s.NoChangeWaits → t.sce = s.sce ∧ t.pmn = s.pmn ∧ t.cch = (s.reporting
        [cueRecord s.csq.tag .ok 2 reason s.csq.list j (t.tbm.cue j).scene s.csq.remaining
          false 0]).cch)
    let follows : State → Prop := fun t =>
      (q.cont = true → i + 1 ≤ 1023 → loaded (i + 1) t) ∧
      (q.cont = true → 1023 < i + 1 → ended i 2 t) ∧ (q.cont = false → ended i 1 t) ∧
      t.tbm = (if q.residue = true then s.tbm.writeResidue i s.csq.remaining else s.tbm)
    (s.csq.due = some .cueEnd → s.csq.heldOp = none →
      ∃ t, exec .cueEnd s = .next t ∧ follows t) ∧
    (s.csq.due = some .heldAdvance → ∃ t, exec .heldAdvanceCarriedOut s = .next t ∧ follows t) ∧
    (s.csq.due = some .heldSkip → ∃ t, exec .heldSkipCarriedOut s = .next t ∧ t.tbm = s.tbm ∧
      let next := s.tbm.cue (i + 1)
      (q.cont = false → ended i 1 t) ∧ (q.cont = true → 1023 ≤ i → ended i 2 t) ∧
      (q.cont = true → i < 1023 → next.cont = false → ended (i + 1) 1 t) ∧
      (q.cont = true → i = 1022 → next.cont = true → ended (i + 1) 2 t) ∧
      (q.cont = true → i < 1022 → next.cont = true → loaded (i + 2) t)) ∧
    (s.csq.due = some .vampReload → ∃ t, exec .vampReload s = .next t ∧
      t.csq = { s.csq with remaining := q.length, due := none } ∧ t.swu = s.swu ∧ t.stg = s.stg ∧
      t.tbm = s.tbm ∧ s.ClickedBehindEvent t ∧
      (s.NoChangeWaits → t.cch = s.cch ∧ t.sce = s.sce ∧ t.pmn = s.pmn) ∧
      ∀ b v, s.pmn.events = [.expression b v] →
        t.pmn = { s.pmn with
          events := []
          last1 := if b then s.pmn.last1 else v
          last2 := if b then v else s.pmn.last2 } ∧
        t.sce = (s.applyExpMaps (if b then 2 else 1) v).sce ∧
        t.cch = (s.reporting (if s.pmn.reporting then [expressionRecord (if b then 2 else 1) v]
          else [])).cch)

/-! ### The machine -/

/-- A step of the machine runs the step at the front of its queue on the state with the queue's rest; on an
empty queue the part idles, which is the model's choice (log 1). -/
def Obligations.StepRunsTheFrontOfTheQueue : Prop :=
  (∀ (c : Instr) (rest : List Instr) (s : State),
    step { s with pending := c :: rest } = exec c { s with pending := rest }) ∧
  ∀ s : State, s.pending = [] → step s = .next s

/-- Nothing in the manual stops the part: every step, with every operand and in every state, answers a next
state and leaves the queue of the steps that wait as it is. That this holds also of a step whose moment has
not come (log 3), and of one taken while RESETN is low (log 7), is the model's choice. -/
def Obligations.EveryStepCompletes : Prop :=
  ∀ (c : Instr) (s : State), ∃ t, exec c s = .next t ∧ t.pending = s.pending

/-- R46: Table Memory keeps its canonical form through every step. The form is the model's own (log
34). -/
def Obligations.MemoryStaysCanonical : Prop :=
  ∀ s t : State, s.MemoryCanonical → step s = .next t → t.MemoryCanonical

/-- R162, R168: no step leaves more than 4 entries on the return stack, or more than one of reason TUNER. -/
def Obligations.ReturnStackStaysLegal : Prop :=
  ∀ s t : State, s.StackLegal → step s = .next t → t.StackLegal

/-- R29: no step leaves more than 128 words in the command FIFO. -/
def Obligations.FifoStaysWithinItsCapacity : Prop :=
  ∀ s t : State, s.FifoLegal → step s = .next t → t.FifoLegal

/-- R123: no step puts one scene in two slots, makes two slots LIVE or two FADING, or leaves a FADING slot
without a crossfade in flight. -/
def Obligations.SlotsStayLegal : Prop :=
  ∀ s t : State, s.SlotsLegal → step s = .next t → t.SlotsLegal

/-- 9.1, R62, R83, R84, R108, R120, R121, R141, R171, R174, R175, R176, R178: through every step the fields of
the tempo clock stay in their ranges, the phase below the period and the beat within the bar; the gate limit,
the mute and fade-in gains, the fill of every delay line and the elapsed count of a crossfade stay in theirs;
and a line holds a next time only behind a tap fade in flight. -/
def Obligations.ClockAndGainsStayInRange : Prop :=
  (∀ s t : State, s.tck.Legal → step s = .next t → t.tck.Legal) ∧
  (∀ s t : State, s.InRange → step s = .next t → t.InRange)

/-- The power-on reset leaves a state that is settled and meets every invariant of the machine, with
the chip in UNLOCKED, the tables blank, the queues empty and passthrough the live scene. Fields
without a reset value in the manual have values of the model (log 22). -/
def Obligations.ResetMeetsTheInvariants : Prop :=
  State.reset.Settled ∧ State.reset.MemoryCanonical ∧ State.reset.StackLegal ∧
  State.reset.FifoLegal ∧ State.reset.SlotsLegal ∧ State.reset.tck.Legal ∧ State.reset.InRange ∧
  State.reset.liveScene = none ∧ State.reset.sli.lock = .unlocked ∧
  State.reset.sce.mute = 32768 ∧ State.reset.tck.period = 24000 ∧ State.reset.tck.meter = 4 ∧
  State.reset.tun.reference = 440 ∧ State.reset.pmn.debounce = 15 ∧
  State.reset.dlu.threshold = 64 ∧ State.reset.tbm.gateLimit = 0 ∧ State.reset.pending = [] ∧
  State.reset.tbm = Tbm.blank ∧ State.reset.cch = Cch.reset ∧
  State.reset.cch.fifo = [] ∧ State.reset.cch.replyWords = 0
end

