-- ==== Sys2Proof/Laws/Arith.lean ====
section
/-! SUPPORT. The rounding, clamps and sums of chapter 5 in closed form: what every stage rests on. -/

namespace Sys2Proof.Machine

/-- Rounding over an even divisor adds half of it and takes the floor (R1). -/
theorem rounded_even (a h : Int) : rounded a (2 * h) = (a + h) / (2 * h) := by
  unfold rounded
  rw [show 2 * a + 2 * h = 2 * (a + h) by ring, Int.mul_ediv_mul_of_pos _ _ (by omega)]

/-- A weight or level applied to a sample (R1). -/
theorem share_eq (x g : Int) : share x g = (x * g + 16384) / 32768 := rounded_even _ 16384

theorem clampSample_eq (x : Int) : clampSample x = max (-8388608) (min x 8388607) := rfl

/-- A line between two points, rounded, lies between them (R98, R99, R106). -/
theorem rounded_line_between (p q f : Int) (h0 : 0 ≤ f) (h1 : f ≤ 32767) :
    min p q ≤ p + ((q - p) * f + 16384) / 32768 ∧
      p + ((q - p) * f + 16384) / 32768 ≤ max p q := by
  rcases le_total p q with h | h
  · rw [min_eq_left h, max_eq_right h]
    have low : 0 ≤ (q - p) * f := by nlinarith
    have high : (q - p) * f ≤ (q - p) * 32767 := by nlinarith
    generalize (q - p) * f = z at *
    omega
  · rw [min_eq_right h, max_eq_left h]
    have high : (q - p) * f ≤ 0 := by nlinarith
    have low : (q - p) * 32767 ≤ (q - p) * f := by nlinarith
    generalize (q - p) * f = z at *
    omega

/-- The sum of a FIR over its taps; a sample beyond the history is 0 (R104). -/
theorem firSum_eq (taps : List Word24) (xs : List Int) :
    firSum taps xs =
      ((List.range taps.length).map fun k => (taps.getD k 0).toInt * xs.getD k 0).sum := by
  induction taps generalizing xs with
  | nil => simp [firSum]
  | cons h hs ih =>
    cases xs with
    | nil => simp [firSum]
    | cons x xs => simp [firSum, ih, List.range_succ_eq_map, List.map_map, Function.comp_def]

end Sys2Proof.Machine
end

