-- ==== Sys2Proof/Laws/State.lean ====
section
/-! SUPPORT. One lemma per field per update of the state, so that no later proof unfolds a record
update. -/

namespace Sys2Proof.Machine

variable (s : State)

@[simp] theorem State.mapSli_sli (f : Sli → Sli) : (s.mapSli f).sli = f s.sli := rfl
@[simp] theorem State.mapSli_cch (f : Sli → Sli) : (s.mapSli f).cch = s.cch := rfl
@[simp] theorem State.mapSli_tbm (f : Sli → Sli) : (s.mapSli f).tbm = s.tbm := rfl
@[simp] theorem State.mapSli_stg (f : Sli → Sli) : (s.mapSli f).stg = s.stg := rfl
@[simp] theorem State.mapSli_swu (f : Sli → Sli) : (s.mapSli f).swu = s.swu := rfl
@[simp] theorem State.mapSli_sce (f : Sli → Sli) : (s.mapSli f).sce = s.sce := rfl
@[simp] theorem State.mapSli_dlu (f : Sli → Sli) : (s.mapSli f).dlu = s.dlu := rfl
@[simp] theorem State.mapSli_pmn (f : Sli → Sli) : (s.mapSli f).pmn = s.pmn := rfl
@[simp] theorem State.mapSli_tck (f : Sli → Sli) : (s.mapSli f).tck = s.tck := rfl
@[simp] theorem State.mapSli_csq (f : Sli → Sli) : (s.mapSli f).csq = s.csq := rfl
@[simp] theorem State.mapSli_tun (f : Sli → Sli) : (s.mapSli f).tun = s.tun := rfl
@[simp] theorem State.mapSli_frame (f : Sli → Sli) : (s.mapSli f).frame = s.frame := rfl
@[simp] theorem State.mapSli_pending (f : Sli → Sli) : (s.mapSli f).pending = s.pending := rfl

@[simp] theorem State.mapCch_sli (f : Cch → Cch) : (s.mapCch f).sli = s.sli := rfl
@[simp] theorem State.mapCch_cch (f : Cch → Cch) : (s.mapCch f).cch = f s.cch := rfl
@[simp] theorem State.mapCch_tbm (f : Cch → Cch) : (s.mapCch f).tbm = s.tbm := rfl
@[simp] theorem State.mapCch_stg (f : Cch → Cch) : (s.mapCch f).stg = s.stg := rfl
@[simp] theorem State.mapCch_swu (f : Cch → Cch) : (s.mapCch f).swu = s.swu := rfl
@[simp] theorem State.mapCch_sce (f : Cch → Cch) : (s.mapCch f).sce = s.sce := rfl
@[simp] theorem State.mapCch_dlu (f : Cch → Cch) : (s.mapCch f).dlu = s.dlu := rfl
@[simp] theorem State.mapCch_pmn (f : Cch → Cch) : (s.mapCch f).pmn = s.pmn := rfl
@[simp] theorem State.mapCch_tck (f : Cch → Cch) : (s.mapCch f).tck = s.tck := rfl
@[simp] theorem State.mapCch_csq (f : Cch → Cch) : (s.mapCch f).csq = s.csq := rfl
@[simp] theorem State.mapCch_tun (f : Cch → Cch) : (s.mapCch f).tun = s.tun := rfl
@[simp] theorem State.mapCch_frame (f : Cch → Cch) : (s.mapCch f).frame = s.frame := rfl
@[simp] theorem State.mapCch_pending (f : Cch → Cch) : (s.mapCch f).pending = s.pending := rfl

@[simp] theorem State.mapTbm_sli (f : Tbm → Tbm) : (s.mapTbm f).sli = s.sli := rfl
@[simp] theorem State.mapTbm_cch (f : Tbm → Tbm) : (s.mapTbm f).cch = s.cch := rfl
@[simp] theorem State.mapTbm_tbm (f : Tbm → Tbm) : (s.mapTbm f).tbm = f s.tbm := rfl
@[simp] theorem State.mapTbm_stg (f : Tbm → Tbm) : (s.mapTbm f).stg = s.stg := rfl
@[simp] theorem State.mapTbm_swu (f : Tbm → Tbm) : (s.mapTbm f).swu = s.swu := rfl
@[simp] theorem State.mapTbm_sce (f : Tbm → Tbm) : (s.mapTbm f).sce = s.sce := rfl
@[simp] theorem State.mapTbm_dlu (f : Tbm → Tbm) : (s.mapTbm f).dlu = s.dlu := rfl
@[simp] theorem State.mapTbm_pmn (f : Tbm → Tbm) : (s.mapTbm f).pmn = s.pmn := rfl
@[simp] theorem State.mapTbm_tck (f : Tbm → Tbm) : (s.mapTbm f).tck = s.tck := rfl
@[simp] theorem State.mapTbm_csq (f : Tbm → Tbm) : (s.mapTbm f).csq = s.csq := rfl
@[simp] theorem State.mapTbm_tun (f : Tbm → Tbm) : (s.mapTbm f).tun = s.tun := rfl
@[simp] theorem State.mapTbm_frame (f : Tbm → Tbm) : (s.mapTbm f).frame = s.frame := rfl
@[simp] theorem State.mapTbm_pending (f : Tbm → Tbm) : (s.mapTbm f).pending = s.pending := rfl

@[simp] theorem State.mapStg_sli (f : Stg → Stg) : (s.mapStg f).sli = s.sli := rfl
@[simp] theorem State.mapStg_cch (f : Stg → Stg) : (s.mapStg f).cch = s.cch := rfl
@[simp] theorem State.mapStg_tbm (f : Stg → Stg) : (s.mapStg f).tbm = s.tbm := rfl
@[simp] theorem State.mapStg_stg (f : Stg → Stg) : (s.mapStg f).stg = f s.stg := rfl
@[simp] theorem State.mapStg_swu (f : Stg → Stg) : (s.mapStg f).swu = s.swu := rfl
@[simp] theorem State.mapStg_sce (f : Stg → Stg) : (s.mapStg f).sce = s.sce := rfl
@[simp] theorem State.mapStg_dlu (f : Stg → Stg) : (s.mapStg f).dlu = s.dlu := rfl
@[simp] theorem State.mapStg_pmn (f : Stg → Stg) : (s.mapStg f).pmn = s.pmn := rfl
@[simp] theorem State.mapStg_tck (f : Stg → Stg) : (s.mapStg f).tck = s.tck := rfl
@[simp] theorem State.mapStg_csq (f : Stg → Stg) : (s.mapStg f).csq = s.csq := rfl
@[simp] theorem State.mapStg_tun (f : Stg → Stg) : (s.mapStg f).tun = s.tun := rfl
@[simp] theorem State.mapStg_frame (f : Stg → Stg) : (s.mapStg f).frame = s.frame := rfl
@[simp] theorem State.mapStg_pending (f : Stg → Stg) : (s.mapStg f).pending = s.pending := rfl

@[simp] theorem State.mapSwu_sli (f : Swu → Swu) : (s.mapSwu f).sli = s.sli := rfl
@[simp] theorem State.mapSwu_cch (f : Swu → Swu) : (s.mapSwu f).cch = s.cch := rfl
@[simp] theorem State.mapSwu_tbm (f : Swu → Swu) : (s.mapSwu f).tbm = s.tbm := rfl
@[simp] theorem State.mapSwu_stg (f : Swu → Swu) : (s.mapSwu f).stg = s.stg := rfl
@[simp] theorem State.mapSwu_swu (f : Swu → Swu) : (s.mapSwu f).swu = f s.swu := rfl
@[simp] theorem State.mapSwu_sce (f : Swu → Swu) : (s.mapSwu f).sce = s.sce := rfl
@[simp] theorem State.mapSwu_dlu (f : Swu → Swu) : (s.mapSwu f).dlu = s.dlu := rfl
@[simp] theorem State.mapSwu_pmn (f : Swu → Swu) : (s.mapSwu f).pmn = s.pmn := rfl
@[simp] theorem State.mapSwu_tck (f : Swu → Swu) : (s.mapSwu f).tck = s.tck := rfl
@[simp] theorem State.mapSwu_csq (f : Swu → Swu) : (s.mapSwu f).csq = s.csq := rfl
@[simp] theorem State.mapSwu_tun (f : Swu → Swu) : (s.mapSwu f).tun = s.tun := rfl
@[simp] theorem State.mapSwu_frame (f : Swu → Swu) : (s.mapSwu f).frame = s.frame := rfl
@[simp] theorem State.mapSwu_pending (f : Swu → Swu) : (s.mapSwu f).pending = s.pending := rfl

@[simp] theorem State.mapSce_sli (f : Sce → Sce) : (s.mapSce f).sli = s.sli := rfl
@[simp] theorem State.mapSce_cch (f : Sce → Sce) : (s.mapSce f).cch = s.cch := rfl
@[simp] theorem State.mapSce_tbm (f : Sce → Sce) : (s.mapSce f).tbm = s.tbm := rfl
@[simp] theorem State.mapSce_stg (f : Sce → Sce) : (s.mapSce f).stg = s.stg := rfl
@[simp] theorem State.mapSce_swu (f : Sce → Sce) : (s.mapSce f).swu = s.swu := rfl
@[simp] theorem State.mapSce_sce (f : Sce → Sce) : (s.mapSce f).sce = f s.sce := rfl
@[simp] theorem State.mapSce_dlu (f : Sce → Sce) : (s.mapSce f).dlu = s.dlu := rfl
@[simp] theorem State.mapSce_pmn (f : Sce → Sce) : (s.mapSce f).pmn = s.pmn := rfl
@[simp] theorem State.mapSce_tck (f : Sce → Sce) : (s.mapSce f).tck = s.tck := rfl
@[simp] theorem State.mapSce_csq (f : Sce → Sce) : (s.mapSce f).csq = s.csq := rfl
@[simp] theorem State.mapSce_tun (f : Sce → Sce) : (s.mapSce f).tun = s.tun := rfl
@[simp] theorem State.mapSce_frame (f : Sce → Sce) : (s.mapSce f).frame = s.frame := rfl
@[simp] theorem State.mapSce_pending (f : Sce → Sce) : (s.mapSce f).pending = s.pending := rfl

@[simp] theorem State.mapDlu_sli (f : Dlu → Dlu) : (s.mapDlu f).sli = s.sli := rfl
@[simp] theorem State.mapDlu_cch (f : Dlu → Dlu) : (s.mapDlu f).cch = s.cch := rfl
@[simp] theorem State.mapDlu_tbm (f : Dlu → Dlu) : (s.mapDlu f).tbm = s.tbm := rfl
@[simp] theorem State.mapDlu_stg (f : Dlu → Dlu) : (s.mapDlu f).stg = s.stg := rfl
@[simp] theorem State.mapDlu_swu (f : Dlu → Dlu) : (s.mapDlu f).swu = s.swu := rfl
@[simp] theorem State.mapDlu_sce (f : Dlu → Dlu) : (s.mapDlu f).sce = s.sce := rfl
@[simp] theorem State.mapDlu_dlu (f : Dlu → Dlu) : (s.mapDlu f).dlu = f s.dlu := rfl
@[simp] theorem State.mapDlu_pmn (f : Dlu → Dlu) : (s.mapDlu f).pmn = s.pmn := rfl
@[simp] theorem State.mapDlu_tck (f : Dlu → Dlu) : (s.mapDlu f).tck = s.tck := rfl
@[simp] theorem State.mapDlu_csq (f : Dlu → Dlu) : (s.mapDlu f).csq = s.csq := rfl
@[simp] theorem State.mapDlu_tun (f : Dlu → Dlu) : (s.mapDlu f).tun = s.tun := rfl
@[simp] theorem State.mapDlu_frame (f : Dlu → Dlu) : (s.mapDlu f).frame = s.frame := rfl
@[simp] theorem State.mapDlu_pending (f : Dlu → Dlu) : (s.mapDlu f).pending = s.pending := rfl

@[simp] theorem State.mapPmn_sli (f : Pmn → Pmn) : (s.mapPmn f).sli = s.sli := rfl
@[simp] theorem State.mapPmn_cch (f : Pmn → Pmn) : (s.mapPmn f).cch = s.cch := rfl
@[simp] theorem State.mapPmn_tbm (f : Pmn → Pmn) : (s.mapPmn f).tbm = s.tbm := rfl
@[simp] theorem State.mapPmn_stg (f : Pmn → Pmn) : (s.mapPmn f).stg = s.stg := rfl
@[simp] theorem State.mapPmn_swu (f : Pmn → Pmn) : (s.mapPmn f).swu = s.swu := rfl
@[simp] theorem State.mapPmn_sce (f : Pmn → Pmn) : (s.mapPmn f).sce = s.sce := rfl
@[simp] theorem State.mapPmn_dlu (f : Pmn → Pmn) : (s.mapPmn f).dlu = s.dlu := rfl
@[simp] theorem State.mapPmn_pmn (f : Pmn → Pmn) : (s.mapPmn f).pmn = f s.pmn := rfl
@[simp] theorem State.mapPmn_tck (f : Pmn → Pmn) : (s.mapPmn f).tck = s.tck := rfl
@[simp] theorem State.mapPmn_csq (f : Pmn → Pmn) : (s.mapPmn f).csq = s.csq := rfl
@[simp] theorem State.mapPmn_tun (f : Pmn → Pmn) : (s.mapPmn f).tun = s.tun := rfl
@[simp] theorem State.mapPmn_frame (f : Pmn → Pmn) : (s.mapPmn f).frame = s.frame := rfl
@[simp] theorem State.mapPmn_pending (f : Pmn → Pmn) : (s.mapPmn f).pending = s.pending := rfl

@[simp] theorem State.mapTck_sli (f : Tck → Tck) : (s.mapTck f).sli = s.sli := rfl
@[simp] theorem State.mapTck_cch (f : Tck → Tck) : (s.mapTck f).cch = s.cch := rfl
@[simp] theorem State.mapTck_tbm (f : Tck → Tck) : (s.mapTck f).tbm = s.tbm := rfl
@[simp] theorem State.mapTck_stg (f : Tck → Tck) : (s.mapTck f).stg = s.stg := rfl
@[simp] theorem State.mapTck_swu (f : Tck → Tck) : (s.mapTck f).swu = s.swu := rfl
@[simp] theorem State.mapTck_sce (f : Tck → Tck) : (s.mapTck f).sce = s.sce := rfl
@[simp] theorem State.mapTck_dlu (f : Tck → Tck) : (s.mapTck f).dlu = s.dlu := rfl
@[simp] theorem State.mapTck_pmn (f : Tck → Tck) : (s.mapTck f).pmn = s.pmn := rfl
@[simp] theorem State.mapTck_tck (f : Tck → Tck) : (s.mapTck f).tck = f s.tck := rfl
@[simp] theorem State.mapTck_csq (f : Tck → Tck) : (s.mapTck f).csq = s.csq := rfl
@[simp] theorem State.mapTck_tun (f : Tck → Tck) : (s.mapTck f).tun = s.tun := rfl
@[simp] theorem State.mapTck_frame (f : Tck → Tck) : (s.mapTck f).frame = s.frame := rfl
@[simp] theorem State.mapTck_pending (f : Tck → Tck) : (s.mapTck f).pending = s.pending := rfl

@[simp] theorem State.mapCsq_sli (f : Csq → Csq) : (s.mapCsq f).sli = s.sli := rfl
@[simp] theorem State.mapCsq_cch (f : Csq → Csq) : (s.mapCsq f).cch = s.cch := rfl
@[simp] theorem State.mapCsq_tbm (f : Csq → Csq) : (s.mapCsq f).tbm = s.tbm := rfl
@[simp] theorem State.mapCsq_stg (f : Csq → Csq) : (s.mapCsq f).stg = s.stg := rfl
@[simp] theorem State.mapCsq_swu (f : Csq → Csq) : (s.mapCsq f).swu = s.swu := rfl
@[simp] theorem State.mapCsq_sce (f : Csq → Csq) : (s.mapCsq f).sce = s.sce := rfl
@[simp] theorem State.mapCsq_dlu (f : Csq → Csq) : (s.mapCsq f).dlu = s.dlu := rfl
@[simp] theorem State.mapCsq_pmn (f : Csq → Csq) : (s.mapCsq f).pmn = s.pmn := rfl
@[simp] theorem State.mapCsq_tck (f : Csq → Csq) : (s.mapCsq f).tck = s.tck := rfl
@[simp] theorem State.mapCsq_csq (f : Csq → Csq) : (s.mapCsq f).csq = f s.csq := rfl
@[simp] theorem State.mapCsq_tun (f : Csq → Csq) : (s.mapCsq f).tun = s.tun := rfl
@[simp] theorem State.mapCsq_frame (f : Csq → Csq) : (s.mapCsq f).frame = s.frame := rfl
@[simp] theorem State.mapCsq_pending (f : Csq → Csq) : (s.mapCsq f).pending = s.pending := rfl

@[simp] theorem State.mapTun_sli (f : Tun → Tun) : (s.mapTun f).sli = s.sli := rfl
@[simp] theorem State.mapTun_cch (f : Tun → Tun) : (s.mapTun f).cch = s.cch := rfl
@[simp] theorem State.mapTun_tbm (f : Tun → Tun) : (s.mapTun f).tbm = s.tbm := rfl
@[simp] theorem State.mapTun_stg (f : Tun → Tun) : (s.mapTun f).stg = s.stg := rfl
@[simp] theorem State.mapTun_swu (f : Tun → Tun) : (s.mapTun f).swu = s.swu := rfl
@[simp] theorem State.mapTun_sce (f : Tun → Tun) : (s.mapTun f).sce = s.sce := rfl
@[simp] theorem State.mapTun_dlu (f : Tun → Tun) : (s.mapTun f).dlu = s.dlu := rfl
@[simp] theorem State.mapTun_pmn (f : Tun → Tun) : (s.mapTun f).pmn = s.pmn := rfl
@[simp] theorem State.mapTun_tck (f : Tun → Tun) : (s.mapTun f).tck = s.tck := rfl
@[simp] theorem State.mapTun_csq (f : Tun → Tun) : (s.mapTun f).csq = s.csq := rfl
@[simp] theorem State.mapTun_tun (f : Tun → Tun) : (s.mapTun f).tun = f s.tun := rfl
@[simp] theorem State.mapTun_frame (f : Tun → Tun) : (s.mapTun f).frame = s.frame := rfl
@[simp] theorem State.mapTun_pending (f : Tun → Tun) : (s.mapTun f).pending = s.pending := rfl

@[simp] theorem State.mapFrame_sli (f : FrameEnd → FrameEnd) : (s.mapFrame f).sli = s.sli := rfl
@[simp] theorem State.mapFrame_cch (f : FrameEnd → FrameEnd) : (s.mapFrame f).cch = s.cch := rfl
@[simp] theorem State.mapFrame_tbm (f : FrameEnd → FrameEnd) : (s.mapFrame f).tbm = s.tbm := rfl
@[simp] theorem State.mapFrame_stg (f : FrameEnd → FrameEnd) : (s.mapFrame f).stg = s.stg := rfl
@[simp] theorem State.mapFrame_swu (f : FrameEnd → FrameEnd) : (s.mapFrame f).swu = s.swu := rfl
@[simp] theorem State.mapFrame_sce (f : FrameEnd → FrameEnd) : (s.mapFrame f).sce = s.sce := rfl
@[simp] theorem State.mapFrame_dlu (f : FrameEnd → FrameEnd) : (s.mapFrame f).dlu = s.dlu := rfl
@[simp] theorem State.mapFrame_pmn (f : FrameEnd → FrameEnd) : (s.mapFrame f).pmn = s.pmn := rfl
@[simp] theorem State.mapFrame_tck (f : FrameEnd → FrameEnd) : (s.mapFrame f).tck = s.tck := rfl
@[simp] theorem State.mapFrame_csq (f : FrameEnd → FrameEnd) : (s.mapFrame f).csq = s.csq := rfl
@[simp] theorem State.mapFrame_tun (f : FrameEnd → FrameEnd) : (s.mapFrame f).tun = s.tun := rfl
@[simp] theorem State.mapFrame_frame (f : FrameEnd → FrameEnd) : (s.mapFrame f).frame = f s.frame := rfl
@[simp] theorem State.mapFrame_pending (f : FrameEnd → FrameEnd) : (s.mapFrame f).pending = s.pending := rfl

@[simp] theorem State.setSlot_sli (i : SlotNo) (f : StgSlot → StgSlot) : (s.setSlot i f).sli = s.sli := rfl
@[simp] theorem State.setSlot_cch (i : SlotNo) (f : StgSlot → StgSlot) : (s.setSlot i f).cch = s.cch := rfl
@[simp] theorem State.setSlot_tbm (i : SlotNo) (f : StgSlot → StgSlot) : (s.setSlot i f).tbm = s.tbm := rfl
@[simp] theorem State.setSlot_swu (i : SlotNo) (f : StgSlot → StgSlot) : (s.setSlot i f).swu = s.swu := rfl
@[simp] theorem State.setSlot_sce (i : SlotNo) (f : StgSlot → StgSlot) : (s.setSlot i f).sce = s.sce := rfl
@[simp] theorem State.setSlot_dlu (i : SlotNo) (f : StgSlot → StgSlot) : (s.setSlot i f).dlu = s.dlu := rfl
@[simp] theorem State.setSlot_pmn (i : SlotNo) (f : StgSlot → StgSlot) : (s.setSlot i f).pmn = s.pmn := rfl
@[simp] theorem State.setSlot_tck (i : SlotNo) (f : StgSlot → StgSlot) : (s.setSlot i f).tck = s.tck := rfl
@[simp] theorem State.setSlot_csq (i : SlotNo) (f : StgSlot → StgSlot) : (s.setSlot i f).csq = s.csq := rfl
@[simp] theorem State.setSlot_tun (i : SlotNo) (f : StgSlot → StgSlot) : (s.setSlot i f).tun = s.tun := rfl
@[simp] theorem State.setSlot_frame (i : SlotNo) (f : StgSlot → StgSlot) : (s.setSlot i f).frame = s.frame := rfl
@[simp] theorem State.setSlot_pending (i : SlotNo) (f : StgSlot → StgSlot) : (s.setSlot i f).pending = s.pending := rfl

@[simp] theorem State.setLine_sli (i : LineNo) (f : Line → Line) : (s.setLine i f).sli = s.sli := rfl
@[simp] theorem State.setLine_cch (i : LineNo) (f : Line → Line) : (s.setLine i f).cch = s.cch := rfl
@[simp] theorem State.setLine_tbm (i : LineNo) (f : Line → Line) : (s.setLine i f).tbm = s.tbm := rfl
@[simp] theorem State.setLine_stg (i : LineNo) (f : Line → Line) : (s.setLine i f).stg = s.stg := rfl
@[simp] theorem State.setLine_swu (i : LineNo) (f : Line → Line) : (s.setLine i f).swu = s.swu := rfl
@[simp] theorem State.setLine_sce (i : LineNo) (f : Line → Line) : (s.setLine i f).sce = s.sce := rfl
@[simp] theorem State.setLine_pmn (i : LineNo) (f : Line → Line) : (s.setLine i f).pmn = s.pmn := rfl
@[simp] theorem State.setLine_tck (i : LineNo) (f : Line → Line) : (s.setLine i f).tck = s.tck := rfl
@[simp] theorem State.setLine_csq (i : LineNo) (f : Line → Line) : (s.setLine i f).csq = s.csq := rfl
@[simp] theorem State.setLine_tun (i : LineNo) (f : Line → Line) : (s.setLine i f).tun = s.tun := rfl
@[simp] theorem State.setLine_frame (i : LineNo) (f : Line → Line) : (s.setLine i f).frame = s.frame := rfl
@[simp] theorem State.setLine_pending (i : LineNo) (f : Line → Line) : (s.setLine i f).pending = s.pending := rfl

@[simp] theorem State.setSwitch_sli (i : SwitchNo) (f : Footswitch → Footswitch) : (s.setSwitch i f).sli = s.sli := rfl
@[simp] theorem State.setSwitch_cch (i : SwitchNo) (f : Footswitch → Footswitch) : (s.setSwitch i f).cch = s.cch := rfl
@[simp] theorem State.setSwitch_tbm (i : SwitchNo) (f : Footswitch → Footswitch) : (s.setSwitch i f).tbm = s.tbm := rfl
@[simp] theorem State.setSwitch_stg (i : SwitchNo) (f : Footswitch → Footswitch) : (s.setSwitch i f).stg = s.stg := rfl
@[simp] theorem State.setSwitch_swu (i : SwitchNo) (f : Footswitch → Footswitch) : (s.setSwitch i f).swu = s.swu := rfl
@[simp] theorem State.setSwitch_sce (i : SwitchNo) (f : Footswitch → Footswitch) : (s.setSwitch i f).sce = s.sce := rfl
@[simp] theorem State.setSwitch_dlu (i : SwitchNo) (f : Footswitch → Footswitch) : (s.setSwitch i f).dlu = s.dlu := rfl
@[simp] theorem State.setSwitch_tck (i : SwitchNo) (f : Footswitch → Footswitch) : (s.setSwitch i f).tck = s.tck := rfl
@[simp] theorem State.setSwitch_csq (i : SwitchNo) (f : Footswitch → Footswitch) : (s.setSwitch i f).csq = s.csq := rfl
@[simp] theorem State.setSwitch_tun (i : SwitchNo) (f : Footswitch → Footswitch) : (s.setSwitch i f).tun = s.tun := rfl
@[simp] theorem State.setSwitch_frame (i : SwitchNo) (f : Footswitch → Footswitch) : (s.setSwitch i f).frame = s.frame := rfl
@[simp] theorem State.setSwitch_pending (i : SwitchNo) (f : Footswitch → Footswitch) : (s.setSwitch i f).pending = s.pending := rfl

@[simp] theorem State.setSlot_armQueue (i : SlotNo) (f : StgSlot → StgSlot) :
    (s.setSlot i f).stg.armQueue = s.stg.armQueue := rfl
@[simp] theorem State.setSlot_readyOrder (i : SlotNo) (f : StgSlot → StgSlot) :
    (s.setSlot i f).stg.readyOrder = s.stg.readyOrder := rfl
@[simp] theorem State.setSlot_loaderWaits (i : SlotNo) (f : StgSlot → StgSlot) :
    (s.setSlot i f).stg.loaderWaits = s.stg.loaderWaits := rfl

/-! ### Reports -/

@[simp] theorem State.raise_sli (k : RecordKind) (t : Byte) (c : Code) (b : List Word24) :
    (s.raise k t c b).sli = s.sli := rfl
@[simp] theorem State.deliver_sli : s.deliver.sli = s.sli := rfl
@[simp] theorem State.raise_tbm (k : RecordKind) (t : Byte) (c : Code) (b : List Word24) :
    (s.raise k t c b).tbm = s.tbm := rfl
@[simp] theorem State.deliver_tbm : s.deliver.tbm = s.tbm := rfl
@[simp] theorem State.raise_stg (k : RecordKind) (t : Byte) (c : Code) (b : List Word24) :
    (s.raise k t c b).stg = s.stg := rfl
@[simp] theorem State.deliver_stg : s.deliver.stg = s.stg := rfl
@[simp] theorem State.raise_swu (k : RecordKind) (t : Byte) (c : Code) (b : List Word24) :
    (s.raise k t c b).swu = s.swu := rfl
@[simp] theorem State.deliver_swu : s.deliver.swu = s.swu := rfl
@[simp] theorem State.raise_sce (k : RecordKind) (t : Byte) (c : Code) (b : List Word24) :
    (s.raise k t c b).sce = s.sce := rfl
@[simp] theorem State.deliver_sce : s.deliver.sce = s.sce := rfl
@[simp] theorem State.raise_dlu (k : RecordKind) (t : Byte) (c : Code) (b : List Word24) :
    (s.raise k t c b).dlu = s.dlu := rfl
@[simp] theorem State.deliver_dlu : s.deliver.dlu = s.dlu := rfl
@[simp] theorem State.raise_pmn (k : RecordKind) (t : Byte) (c : Code) (b : List Word24) :
    (s.raise k t c b).pmn = s.pmn := rfl
@[simp] theorem State.deliver_pmn : s.deliver.pmn = s.pmn := rfl
@[simp] theorem State.raise_tck (k : RecordKind) (t : Byte) (c : Code) (b : List Word24) :
    (s.raise k t c b).tck = s.tck := rfl
@[simp] theorem State.deliver_tck : s.deliver.tck = s.tck := rfl
@[simp] theorem State.raise_csq (k : RecordKind) (t : Byte) (c : Code) (b : List Word24) :
    (s.raise k t c b).csq = s.csq := rfl
@[simp] theorem State.deliver_csq : s.deliver.csq = s.csq := rfl
@[simp] theorem State.raise_tun (k : RecordKind) (t : Byte) (c : Code) (b : List Word24) :
    (s.raise k t c b).tun = s.tun := rfl
@[simp] theorem State.deliver_tun : s.deliver.tun = s.tun := rfl
@[simp] theorem State.raise_frame (k : RecordKind) (t : Byte) (c : Code) (b : List Word24) :
    (s.raise k t c b).frame = s.frame := rfl
@[simp] theorem State.deliver_frame : s.deliver.frame = s.frame := rfl
@[simp] theorem State.raise_pending (k : RecordKind) (t : Byte) (c : Code) (b : List Word24) :
    (s.raise k t c b).pending = s.pending := rfl
@[simp] theorem State.deliver_pending : s.deliver.pending = s.pending := rfl

/-! ### Banks -/

theorem upd_get {α : Type} {n : Nat} (v : Vector α n) (i j : Fin n) (x : α) :
    (upd v i x).get j = if i = j then x else v.get j := by
  unfold upd
  simp only [Vector.get_eq_getElem, Vector.getElem_set, Fin.val_inj]

@[simp] theorem upd_get_same {α : Type} {n : Nat} (v : Vector α n) (i : Fin n) (x : α) :
    (upd v i x).get i = x := by simp [upd_get]

@[simp] theorem vmap_get {α β : Type} {n : Nat} (f : α → β) (v : Vector α n) (i : Fin n) :
    (vmap f v).get i = f (v.get i) := by
  simp [vmap, Vector.get_eq_getElem]

@[simp] theorem State.setSlot_get (i j : SlotNo) (f : StgSlot → StgSlot) :
    (s.setSlot i f).stg.slots.get j
      = if i = j then f (s.stg.slots.get i) else s.stg.slots.get j := by
  simp [State.setSlot, upd_get]

@[simp] theorem State.setLine_get (i j : LineNo) (f : Line → Line) :
    (s.setLine i f).dlu.lines.get j
      = if i = j then f (s.dlu.lines.get i) else s.dlu.lines.get j := by
  simp [State.setLine, upd_get]

@[simp] theorem State.setSwitch_get (i j : SwitchNo) (f : Footswitch → Footswitch) :
    (s.setSwitch i f).pmn.switches.get j
      = if i = j then f (s.pmn.switches.get i) else s.pmn.switches.get j := by
  simp [State.setSwitch, upd_get]

end Sys2Proof.Machine
end

