-- ==== Sys2Proof/Laws/Frames.lean ====
section
/-! SUPPORT. For each operation over the state, the blocks it leaves unchanged, and whether it leaves
the return stack unchanged. -/

namespace Sys2Proof.Machine

variable (s : State)

@[simp] theorem State.emptySlot_frame (i : SlotNo) :
    (s.emptySlot i).sli = s.sli ∧
    (s.emptySlot i).cch = s.cch ∧
    (s.emptySlot i).tbm = s.tbm ∧
    (s.emptySlot i).swu = s.swu ∧
    (s.emptySlot i).sce = s.sce ∧
    (s.emptySlot i).dlu = s.dlu ∧
    (s.emptySlot i).pmn = s.pmn ∧
    (s.emptySlot i).tck = s.tck ∧
    (s.emptySlot i).csq = s.csq ∧
    (s.emptySlot i).tun = s.tun ∧
    (s.emptySlot i).frame = s.frame ∧
    (s.emptySlot i).pending = s.pending := by
  unfold State.emptySlot
  simp

@[simp] theorem State.armReport_frame (i : SlotNo) (t : StgSlot) (c : Code) :
    (s.armReport i t c).sli = s.sli ∧
    (s.armReport i t c).tbm = s.tbm ∧
    (s.armReport i t c).stg = s.stg ∧
    (s.armReport i t c).swu = s.swu ∧
    (s.armReport i t c).sce = s.sce ∧
    (s.armReport i t c).dlu = s.dlu ∧
    (s.armReport i t c).pmn = s.pmn ∧
    (s.armReport i t c).tck = s.tck ∧
    (s.armReport i t c).csq = s.csq ∧
    (s.armReport i t c).tun = s.tun ∧
    (s.armReport i t c).frame = s.frame ∧
    (s.armReport i t c).pending = s.pending := by
  unfold State.armReport
  simp

@[simp] theorem State.queueSlot_frame (i : SlotNo) (a : ArmRequest) :
    (s.queueSlot i a).sli = s.sli ∧
    (s.queueSlot i a).cch = s.cch ∧
    (s.queueSlot i a).tbm = s.tbm ∧
    (s.queueSlot i a).swu = s.swu ∧
    (s.queueSlot i a).sce = s.sce ∧
    (s.queueSlot i a).dlu = s.dlu ∧
    (s.queueSlot i a).pmn = s.pmn ∧
    (s.queueSlot i a).tck = s.tck ∧
    (s.queueSlot i a).csq = s.csq ∧
    (s.queueSlot i a).tun = s.tun ∧
    (s.queueSlot i a).frame = s.frame ∧
    (s.queueSlot i a).pending = s.pending := by
  unfold State.queueSlot
  simp

@[simp] theorem State.armRequest_frame (a : ArmRequest) :
    ((s.armRequest a).1).sli = s.sli ∧
    ((s.armRequest a).1).cch = s.cch ∧
    ((s.armRequest a).1).tbm = s.tbm ∧
    ((s.armRequest a).1).swu = s.swu ∧
    ((s.armRequest a).1).sce = s.sce ∧
    ((s.armRequest a).1).dlu = s.dlu ∧
    ((s.armRequest a).1).pmn = s.pmn ∧
    ((s.armRequest a).1).tck = s.tck ∧
    ((s.armRequest a).1).csq = s.csq ∧
    ((s.armRequest a).1).tun = s.tun ∧
    ((s.armRequest a).1).frame = s.frame ∧
    ((s.armRequest a).1).pending = s.pending := by
  unfold State.armRequest
  (repeat' split) <;> simp

@[simp] theorem State.startPreparation_frame (i : SlotNo) (n : Nat) :
    (s.startPreparation i n).sli = s.sli ∧
    (s.startPreparation i n).cch = s.cch ∧
    (s.startPreparation i n).tbm = s.tbm ∧
    (s.startPreparation i n).swu = s.swu ∧
    (s.startPreparation i n).sce = s.sce ∧
    (s.startPreparation i n).dlu = s.dlu ∧
    (s.startPreparation i n).pmn = s.pmn ∧
    (s.startPreparation i n).tck = s.tck ∧
    (s.startPreparation i n).csq = s.csq ∧
    (s.startPreparation i n).tun = s.tun ∧
    (s.startPreparation i n).frame = s.frame ∧
    (s.startPreparation i n).pending = s.pending := by
  unfold State.startPreparation
  simp

@[simp] theorem State.completePreparation_frame (i : SlotNo) :
    (s.completePreparation i).sli = s.sli ∧
    (s.completePreparation i).tbm = s.tbm ∧
    (s.completePreparation i).swu = s.swu ∧
    (s.completePreparation i).sce = s.sce ∧
    (s.completePreparation i).dlu = s.dlu ∧
    (s.completePreparation i).pmn = s.pmn ∧
    (s.completePreparation i).tck = s.tck ∧
    (s.completePreparation i).csq = s.csq ∧
    (s.completePreparation i).tun = s.tun ∧
    (s.completePreparation i).frame = s.frame ∧
    (s.completePreparation i).pending = s.pending := by
  unfold State.completePreparation
  simp

@[simp] theorem State.followTuner_frame (old : TunerState) :
    (s.followTuner old).sli = s.sli ∧
    (s.followTuner old).cch = s.cch ∧
    (s.followTuner old).tbm = s.tbm ∧
    (s.followTuner old).stg = s.stg ∧
    (s.followTuner old).swu = s.swu ∧
    (s.followTuner old).sce = s.sce ∧
    (s.followTuner old).dlu = s.dlu ∧
    (s.followTuner old).pmn = s.pmn ∧
    (s.followTuner old).tck = s.tck ∧
    (s.followTuner old).csq = s.csq ∧
    (s.followTuner old).frame = s.frame ∧
    (s.followTuner old).pending = s.pending := by
  unfold State.followTuner
  split <;> simp

@[simp] theorem State.tunerSceneChange_frame :
    (s.tunerSceneChange).sli = s.sli ∧
    (s.tunerSceneChange).cch = s.cch ∧
    (s.tunerSceneChange).tbm = s.tbm ∧
    (s.tunerSceneChange).stg = s.stg ∧
    (s.tunerSceneChange).swu = s.swu ∧
    (s.tunerSceneChange).sce = s.sce ∧
    (s.tunerSceneChange).dlu = s.dlu ∧
    (s.tunerSceneChange).pmn = s.pmn ∧
    (s.tunerSceneChange).tck = s.tck ∧
    (s.tunerSceneChange).csq = s.csq ∧
    (s.tunerSceneChange).frame = s.frame ∧
    (s.tunerSceneChange).pending = s.pending := by
  unfold State.tunerSceneChange
  split <;> simp

@[simp] theorem State.measure_frame (x : Int) :
    (s.measure x).sli = s.sli ∧
    (s.measure x).cch = s.cch ∧
    (s.measure x).tbm = s.tbm ∧
    (s.measure x).stg = s.stg ∧
    (s.measure x).swu = s.swu ∧
    (s.measure x).sce = s.sce ∧
    (s.measure x).dlu = s.dlu ∧
    (s.measure x).pmn = s.pmn ∧
    (s.measure x).tck = s.tck ∧
    (s.measure x).csq = s.csq ∧
    (s.measure x).frame = s.frame ∧
    (s.measure x).pending = s.pending := by
  unfold State.measure
  split <;> simp

@[simp] theorem State.tuneReport_frame :
    (s.tuneReport).sli = s.sli ∧
    (s.tuneReport).tbm = s.tbm ∧
    (s.tuneReport).stg = s.stg ∧
    (s.tuneReport).swu = s.swu ∧
    (s.tuneReport).sce = s.sce ∧
    (s.tuneReport).dlu = s.dlu ∧
    (s.tuneReport).pmn = s.pmn ∧
    (s.tuneReport).tck = s.tck ∧
    (s.tuneReport).csq = s.csq ∧
    (s.tuneReport).tun = s.tun ∧
    (s.tuneReport).frame = s.frame ∧
    (s.tuneReport).pending = s.pending := by
  unfold State.tuneReport
  (repeat' split) <;> simp

@[simp] theorem State.syncLine_frame (l : LineNo) :
    (s.syncLine l).sli = s.sli ∧
    (s.syncLine l).cch = s.cch ∧
    (s.syncLine l).tbm = s.tbm ∧
    (s.syncLine l).stg = s.stg ∧
    (s.syncLine l).swu = s.swu ∧
    (s.syncLine l).sce = s.sce ∧
    (s.syncLine l).pmn = s.pmn ∧
    (s.syncLine l).tck = s.tck ∧
    (s.syncLine l).csq = s.csq ∧
    (s.syncLine l).tun = s.tun ∧
    (s.syncLine l).frame = s.frame ∧
    (s.syncLine l).pending = s.pending := by
  unfold State.syncLine
  (repeat' split) <;> simp

@[simp] theorem State.syncLines_frame :
    (s.syncLines).sli = s.sli ∧
    (s.syncLines).cch = s.cch ∧
    (s.syncLines).tbm = s.tbm ∧
    (s.syncLines).stg = s.stg ∧
    (s.syncLines).swu = s.swu ∧
    (s.syncLines).sce = s.sce ∧
    (s.syncLines).pmn = s.pmn ∧
    (s.syncLines).tck = s.tck ∧
    (s.syncLines).csq = s.csq ∧
    (s.syncLines).tun = s.tun ∧
    (s.syncLines).frame = s.frame ∧
    (s.syncLines).pending = s.pending := by
  simp [State.syncLines, forEach, four]

@[simp] theorem State.switchReport_frame (r : Request) (c : Code) (f d : Option SceneNo) (v e : Bool) :
    (s.switchReport r c f d v e).sli = s.sli ∧
    (s.switchReport r c f d v e).tbm = s.tbm ∧
    (s.switchReport r c f d v e).stg = s.stg ∧
    (s.switchReport r c f d v e).swu = s.swu ∧
    (s.switchReport r c f d v e).sce = s.sce ∧
    (s.switchReport r c f d v e).dlu = s.dlu ∧
    (s.switchReport r c f d v e).pmn = s.pmn ∧
    (s.switchReport r c f d v e).tck = s.tck ∧
    (s.switchReport r c f d v e).csq = s.csq ∧
    (s.switchReport r c f d v e).tun = s.tun ∧
    (s.switchReport r c f d v e).frame = s.frame ∧
    (s.switchReport r c f d v e).pending = s.pending := by
  unfold State.switchReport
  simp

@[simp] theorem State.clearDemand_frame (n : Option SceneNo) :
    (s.clearDemand n).sli = s.sli ∧
    (s.clearDemand n).cch = s.cch ∧
    (s.clearDemand n).tbm = s.tbm ∧
    (s.clearDemand n).swu = s.swu ∧
    (s.clearDemand n).sce = s.sce ∧
    (s.clearDemand n).dlu = s.dlu ∧
    (s.clearDemand n).pmn = s.pmn ∧
    (s.clearDemand n).tck = s.tck ∧
    (s.clearDemand n).csq = s.csq ∧
    (s.clearDemand n).tun = s.tun ∧
    (s.clearDemand n).frame = s.frame ∧
    (s.clearDemand n).pending = s.pending := by
  unfold State.clearDemand
  split <;> simp

@[simp] theorem State.removePending_frame (c : Code) (f : Option SceneNo) :
    (s.removePending c f).sli = s.sli ∧
    (s.removePending c f).tbm = s.tbm ∧
    (s.removePending c f).sce = s.sce ∧
    (s.removePending c f).dlu = s.dlu ∧
    (s.removePending c f).pmn = s.pmn ∧
    (s.removePending c f).tck = s.tck ∧
    (s.removePending c f).csq = s.csq ∧
    (s.removePending c f).tun = s.tun ∧
    (s.removePending c f).frame = s.frame ∧
    (s.removePending c f).pending = s.pending ∧
    (s.removePending c f).swu.stack = s.swu.stack := by
  unfold State.removePending
  split <;> simp

@[simp] theorem State.refusePending_frame (c : Code) :
    (s.refusePending c).sli = s.sli ∧
    (s.refusePending c).tbm = s.tbm ∧
    (s.refusePending c).sce = s.sce ∧
    (s.refusePending c).dlu = s.dlu ∧
    (s.refusePending c).pmn = s.pmn ∧
    (s.refusePending c).tck = s.tck ∧
    (s.refusePending c).csq = s.csq ∧
    (s.refusePending c).tun = s.tun ∧
    (s.refusePending c).frame = s.frame ∧
    (s.refusePending c).pending = s.pending ∧
    (s.refusePending c).swu.stack = s.swu.stack := by
  unfold State.refusePending
  simp

@[simp] theorem State.makePending_frame (r : Request) :
    (s.makePending r).sli = s.sli ∧
    (s.makePending r).cch = s.cch ∧
    (s.makePending r).tbm = s.tbm ∧
    (s.makePending r).stg = s.stg ∧
    (s.makePending r).sce = s.sce ∧
    (s.makePending r).dlu = s.dlu ∧
    (s.makePending r).pmn = s.pmn ∧
    (s.makePending r).tck = s.tck ∧
    (s.makePending r).csq = s.csq ∧
    (s.makePending r).tun = s.tun ∧
    (s.makePending r).frame = s.frame ∧
    (s.makePending r).pending = s.pending ∧
    (s.makePending r).swu.stack = s.swu.stack := by
  unfold State.makePending
  simp

@[simp] theorem State.newPending_frame (r : Request) :
    ((s.newPending r).1).sli = s.sli ∧
    ((s.newPending r).1).tbm = s.tbm ∧
    ((s.newPending r).1).sce = s.sce ∧
    ((s.newPending r).1).dlu = s.dlu ∧
    ((s.newPending r).1).pmn = s.pmn ∧
    ((s.newPending r).1).tck = s.tck ∧
    ((s.newPending r).1).csq = s.csq ∧
    ((s.newPending r).1).tun = s.tun ∧
    ((s.newPending r).1).frame = s.frame ∧
    ((s.newPending r).1).pending = s.pending ∧
    ((s.newPending r).1).swu.stack = s.swu.stack := by
  unfold State.newPending
  try dsimp only
  (repeat' split) <;> simp

@[simp] theorem State.setReversal_frame (r : Option Request) :
    (s.setReversal r).sli = s.sli ∧
    (s.setReversal r).cch = s.cch ∧
    (s.setReversal r).tbm = s.tbm ∧
    (s.setReversal r).stg = s.stg ∧
    (s.setReversal r).sce = s.sce ∧
    (s.setReversal r).dlu = s.dlu ∧
    (s.setReversal r).pmn = s.pmn ∧
    (s.setReversal r).tck = s.tck ∧
    (s.setReversal r).csq = s.csq ∧
    (s.setReversal r).tun = s.tun ∧
    (s.setReversal r).frame = s.frame ∧
    (s.setReversal r).pending = s.pending ∧
    (s.setReversal r).swu.stack = s.swu.stack := by
  unfold State.setReversal
  simp

@[simp] theorem State.turnRequest_frame (r : Request) :
    ((s.turnRequest r).1).sli = s.sli ∧
    ((s.turnRequest r).1).tbm = s.tbm ∧
    ((s.turnRequest r).1).sce = s.sce ∧
    ((s.turnRequest r).1).dlu = s.dlu ∧
    ((s.turnRequest r).1).pmn = s.pmn ∧
    ((s.turnRequest r).1).tck = s.tck ∧
    ((s.turnRequest r).1).csq = s.csq ∧
    ((s.turnRequest r).1).tun = s.tun ∧
    ((s.turnRequest r).1).frame = s.frame ∧
    ((s.turnRequest r).1).pending = s.pending ∧
    ((s.turnRequest r).1).swu.stack = s.swu.stack := by
  unfold State.turnRequest
  split <;> simp

@[simp] theorem State.switchRequest_frame (r : Request) :
    ((s.switchRequest r).1).sli = s.sli ∧
    ((s.switchRequest r).1).tbm = s.tbm ∧
    ((s.switchRequest r).1).sce = s.sce ∧
    ((s.switchRequest r).1).dlu = s.dlu ∧
    ((s.switchRequest r).1).pmn = s.pmn ∧
    ((s.switchRequest r).1).tck = s.tck ∧
    ((s.switchRequest r).1).csq = s.csq ∧
    ((s.switchRequest r).1).tun = s.tun ∧
    ((s.switchRequest r).1).frame = s.frame ∧
    ((s.switchRequest r).1).pending = s.pending ∧
    ((s.switchRequest r).1).swu.stack = s.swu.stack := by
  unfold State.switchRequest
  (repeat' split) <;> simp

@[simp] theorem State.completeCrossfade_frame (l : Bool) :
    (s.completeCrossfade l).sli = s.sli ∧
    (s.completeCrossfade l).tbm = s.tbm ∧
    (s.completeCrossfade l).pmn = s.pmn ∧
    (s.completeCrossfade l).tck = s.tck ∧
    (s.completeCrossfade l).csq = s.csq ∧
    (s.completeCrossfade l).tun = s.tun ∧
    (s.completeCrossfade l).frame = s.frame ∧
    (s.completeCrossfade l).pending = s.pending ∧
    (s.completeCrossfade l).swu.stack = s.swu.stack := by
  unfold State.completeCrossfade
  (repeat' split) <;> simp

@[simp] theorem State.bindLines_frame (c : Option Copy) (i o : Option SceneNo) :
    (s.bindLines c i o).sli = s.sli ∧
    (s.bindLines c i o).cch = s.cch ∧
    (s.bindLines c i o).tbm = s.tbm ∧
    (s.bindLines c i o).stg = s.stg ∧
    (s.bindLines c i o).swu = s.swu ∧
    (s.bindLines c i o).sce = s.sce ∧
    (s.bindLines c i o).pmn = s.pmn ∧
    (s.bindLines c i o).tck = s.tck ∧
    (s.bindLines c i o).csq = s.csq ∧
    (s.bindLines c i o).tun = s.tun ∧
    (s.bindLines c i o).frame = s.frame ∧
    (s.bindLines c i o).pending = s.pending := by
  simp [State.bindLines, forEach, four]

@[simp] theorem State.startCrossfade_frame :
    (s.startCrossfade).sli = s.sli ∧
    (s.startCrossfade).tbm = s.tbm ∧
    (s.startCrossfade).pmn = s.pmn ∧
    (s.startCrossfade).tck = s.tck ∧
    (s.startCrossfade).csq = s.csq ∧
    (s.startCrossfade).frame = s.frame ∧
    (s.startCrossfade).pending = s.pending ∧
    (s.startCrossfade).swu.stack = s.swu.stack := by
  unfold State.startCrossfade
  try dsimp only
  (repeat' split) <;> simp

@[simp] theorem State.takeReversal_frame :
    (s.takeReversal).sli = s.sli ∧
    (s.takeReversal).tbm = s.tbm ∧
    (s.takeReversal).pmn = s.pmn ∧
    (s.takeReversal).tck = s.tck ∧
    (s.takeReversal).csq = s.csq ∧
    (s.takeReversal).frame = s.frame ∧
    (s.takeReversal).pending = s.pending ∧
    (s.takeReversal).swu.stack = s.swu.stack := by
  unfold State.takeReversal
  (repeat' split) <;> simp

@[simp] theorem State.baseSwitch_frame (r : Request) :
    ((s.baseSwitch r).1).sli = s.sli ∧
    ((s.baseSwitch r).1).tbm = s.tbm ∧
    ((s.baseSwitch r).1).sce = s.sce ∧
    ((s.baseSwitch r).1).dlu = s.dlu ∧
    ((s.baseSwitch r).1).pmn = s.pmn ∧
    ((s.baseSwitch r).1).tck = s.tck ∧
    ((s.baseSwitch r).1).csq = s.csq ∧
    ((s.baseSwitch r).1).tun = s.tun ∧
    ((s.baseSwitch r).1).frame = s.frame ∧
    ((s.baseSwitch r).1).pending = s.pending := by
  unfold State.baseSwitch
  (repeat' split) <;> simp

@[simp] theorem State.push_frame (r : Reason) (o : Option SwitchNo) :
    (s.push r o).sli = s.sli ∧
    (s.push r o).cch = s.cch ∧
    (s.push r o).tbm = s.tbm ∧
    (s.push r o).stg = s.stg ∧
    (s.push r o).sce = s.sce ∧
    (s.push r o).dlu = s.dlu ∧
    (s.push r o).pmn = s.pmn ∧
    (s.push r o).tck = s.tck ∧
    (s.push r o).csq = s.csq ∧
    (s.push r o).frame = s.frame ∧
    (s.push r o).pending = s.pending := by
  unfold State.push
  simp

@[simp] theorem State.dropTop_frame :
    (s.dropTop).sli = s.sli ∧
    (s.dropTop).cch = s.cch ∧
    (s.dropTop).tbm = s.tbm ∧
    (s.dropTop).stg = s.stg ∧
    (s.dropTop).sce = s.sce ∧
    (s.dropTop).dlu = s.dlu ∧
    (s.dropTop).pmn = s.pmn ∧
    (s.dropTop).tck = s.tck ∧
    (s.dropTop).csq = s.csq ∧
    (s.dropTop).frame = s.frame ∧
    (s.dropTop).pending = s.pending := by
  unfold State.dropTop
  simp

@[simp] theorem State.dropLower_frame (p : StackEntry → Bool) :
    (s.dropLower p).sli = s.sli ∧
    (s.dropLower p).cch = s.cch ∧
    (s.dropLower p).tbm = s.tbm ∧
    (s.dropLower p).stg = s.stg ∧
    (s.dropLower p).sce = s.sce ∧
    (s.dropLower p).dlu = s.dlu ∧
    (s.dropLower p).pmn = s.pmn ∧
    (s.dropLower p).tck = s.tck ∧
    (s.dropLower p).csq = s.csq ∧
    (s.dropLower p).frame = s.frame ∧
    (s.dropLower p).pending = s.pending := by
  unfold State.dropLower
  simp

@[simp] theorem State.pop_frame (b : PopBy) :
    ((s.pop b).1).sli = s.sli ∧
    ((s.pop b).1).tbm = s.tbm ∧
    ((s.pop b).1).sce = s.sce ∧
    ((s.pop b).1).dlu = s.dlu ∧
    ((s.pop b).1).pmn = s.pmn ∧
    ((s.pop b).1).tck = s.tck ∧
    ((s.pop b).1).csq = s.csq ∧
    ((s.pop b).1).frame = s.frame ∧
    ((s.pop b).1).pending = s.pending := by
  unfold State.pop
  try dsimp only
  (repeat' split) <;> simp

@[simp] theorem State.ownerRelease_frame (f : SwitchNo) :
    (s.ownerRelease f).sli = s.sli ∧
    (s.ownerRelease f).tbm = s.tbm ∧
    (s.ownerRelease f).sce = s.sce ∧
    (s.ownerRelease f).dlu = s.dlu ∧
    (s.ownerRelease f).pmn = s.pmn ∧
    (s.ownerRelease f).tck = s.tck ∧
    (s.ownerRelease f).csq = s.csq ∧
    (s.ownerRelease f).frame = s.frame ∧
    (s.ownerRelease f).pending = s.pending := by
  unfold State.ownerRelease
  split <;> simp

@[simp] theorem State.latchPending_frame (b : Bool) :
    (s.latchPending b).sli = s.sli ∧
    (s.latchPending b).cch = s.cch ∧
    (s.latchPending b).tbm = s.tbm ∧
    (s.latchPending b).stg = s.stg ∧
    (s.latchPending b).sce = s.sce ∧
    (s.latchPending b).dlu = s.dlu ∧
    (s.latchPending b).pmn = s.pmn ∧
    (s.latchPending b).tck = s.tck ∧
    (s.latchPending b).csq = s.csq ∧
    (s.latchPending b).tun = s.tun ∧
    (s.latchPending b).frame = s.frame ∧
    (s.latchPending b).pending = s.pending ∧
    (s.latchPending b).swu.stack = s.swu.stack := by
  unfold State.latchPending
  simp

@[simp] theorem State.clickBoundary_frame :
    (s.clickBoundary).sli = s.sli ∧
    (s.clickBoundary).cch = s.cch ∧
    (s.clickBoundary).tbm = s.tbm ∧
    (s.clickBoundary).stg = s.stg ∧
    (s.clickBoundary).swu = s.swu ∧
    (s.clickBoundary).sce = s.sce ∧
    (s.clickBoundary).dlu = s.dlu ∧
    (s.clickBoundary).pmn = s.pmn ∧
    (s.clickBoundary).csq = s.csq ∧
    (s.clickBoundary).tun = s.tun ∧
    (s.clickBoundary).frame = s.frame ∧
    (s.clickBoundary).pending = s.pending := by
  unfold State.clickBoundary
  split <;> simp

@[simp] theorem State.raiseBoundary_frame (a b : Bool) :
    (s.raiseBoundary a b).sli = s.sli ∧
    (s.raiseBoundary a b).cch = s.cch ∧
    (s.raiseBoundary a b).tbm = s.tbm ∧
    (s.raiseBoundary a b).stg = s.stg ∧
    (s.raiseBoundary a b).sce = s.sce ∧
    (s.raiseBoundary a b).dlu = s.dlu ∧
    (s.raiseBoundary a b).pmn = s.pmn ∧
    (s.raiseBoundary a b).tun = s.tun ∧
    (s.raiseBoundary a b).frame = s.frame ∧
    (s.raiseBoundary a b).pending = s.pending ∧
    (s.raiseBoundary a b).swu.stack = s.swu.stack := by
  unfold State.raiseBoundary
  try dsimp only
  (repeat' split) <;> simp

@[simp] theorem State.advancingBoundary_frame :
    (s.advancingBoundary).sli = s.sli ∧
    (s.advancingBoundary).cch = s.cch ∧
    (s.advancingBoundary).tbm = s.tbm ∧
    (s.advancingBoundary).stg = s.stg ∧
    (s.advancingBoundary).sce = s.sce ∧
    (s.advancingBoundary).dlu = s.dlu ∧
    (s.advancingBoundary).pmn = s.pmn ∧
    (s.advancingBoundary).tun = s.tun ∧
    (s.advancingBoundary).frame = s.frame ∧
    (s.advancingBoundary).pending = s.pending ∧
    (s.advancingBoundary).swu.stack = s.swu.stack := by
  unfold State.advancingBoundary
  simp

@[simp] theorem State.restartBoundary_frame :
    (s.restartBoundary).sli = s.sli ∧
    (s.restartBoundary).cch = s.cch ∧
    (s.restartBoundary).tbm = s.tbm ∧
    (s.restartBoundary).stg = s.stg ∧
    (s.restartBoundary).sce = s.sce ∧
    (s.restartBoundary).dlu = s.dlu ∧
    (s.restartBoundary).pmn = s.pmn ∧
    (s.restartBoundary).tun = s.tun ∧
    (s.restartBoundary).frame = s.frame ∧
    (s.restartBoundary).pending = s.pending ∧
    (s.restartBoundary).swu.stack = s.swu.stack := by
  unfold State.restartBoundary
  simp

@[simp] theorem State.risePhase_frame :
    (s.risePhase).sli = s.sli ∧
    (s.risePhase).cch = s.cch ∧
    (s.risePhase).tbm = s.tbm ∧
    (s.risePhase).stg = s.stg ∧
    (s.risePhase).sce = s.sce ∧
    (s.risePhase).dlu = s.dlu ∧
    (s.risePhase).pmn = s.pmn ∧
    (s.risePhase).tun = s.tun ∧
    (s.risePhase).frame = s.frame ∧
    (s.risePhase).pending = s.pending ∧
    (s.risePhase).swu.stack = s.swu.stack := by
  unfold State.risePhase
  split <;> simp

@[simp] theorem State.takePeriod_frame (P : Nat) :
    (s.takePeriod P).sli = s.sli ∧
    (s.takePeriod P).cch = s.cch ∧
    (s.takePeriod P).tbm = s.tbm ∧
    (s.takePeriod P).stg = s.stg ∧
    (s.takePeriod P).sce = s.sce ∧
    (s.takePeriod P).pmn = s.pmn ∧
    (s.takePeriod P).tun = s.tun ∧
    (s.takePeriod P).frame = s.frame ∧
    (s.takePeriod P).pending = s.pending ∧
    (s.takePeriod P).swu.stack = s.swu.stack := by
  unfold State.takePeriod
  try dsimp only
  (repeat' split) <;> simp

@[simp] theorem State.tempoReport_frame (a : Source) (t : Byte) (b : Bool) :
    (s.tempoReport a t b).sli = s.sli ∧
    (s.tempoReport a t b).tbm = s.tbm ∧
    (s.tempoReport a t b).stg = s.stg ∧
    (s.tempoReport a t b).swu = s.swu ∧
    (s.tempoReport a t b).sce = s.sce ∧
    (s.tempoReport a t b).dlu = s.dlu ∧
    (s.tempoReport a t b).pmn = s.pmn ∧
    (s.tempoReport a t b).tck = s.tck ∧
    (s.tempoReport a t b).csq = s.csq ∧
    (s.tempoReport a t b).tun = s.tun ∧
    (s.tempoReport a t b).frame = s.frame ∧
    (s.tempoReport a t b).pending = s.pending := by
  unfold State.tempoReport
  simp

@[simp] theorem State.tapPeriod_frame (a : Source) (t : Byte) :
    (s.tapPeriod a t).sli = s.sli ∧
    (s.tapPeriod a t).tbm = s.tbm ∧
    (s.tapPeriod a t).stg = s.stg ∧
    (s.tapPeriod a t).sce = s.sce ∧
    (s.tapPeriod a t).pmn = s.pmn ∧
    (s.tapPeriod a t).tun = s.tun ∧
    (s.tapPeriod a t).frame = s.frame ∧
    (s.tapPeriod a t).pending = s.pending ∧
    (s.tapPeriod a t).swu.stack = s.swu.stack := by
  unfold State.tapPeriod
  try dsimp only
  (repeat' split) <;> simp

@[simp] theorem State.tapEvent_frame (a : Source) (t : Byte) :
    ((s.tapEvent a t).1).sli = s.sli ∧
    ((s.tapEvent a t).1).tbm = s.tbm ∧
    ((s.tapEvent a t).1).stg = s.stg ∧
    ((s.tapEvent a t).1).sce = s.sce ∧
    ((s.tapEvent a t).1).pmn = s.pmn ∧
    ((s.tapEvent a t).1).tun = s.tun ∧
    ((s.tapEvent a t).1).frame = s.frame ∧
    ((s.tapEvent a t).1).pending = s.pending ∧
    ((s.tapEvent a t).1).swu.stack = s.swu.stack := by
  unfold State.tapEvent
  try dsimp only
  (repeat' split) <;> simp

@[simp] theorem State.cueReport_frame (c : Code) (e r i b : Nat) (l : Bool) (n : Nat) :
    (s.cueReport c e r i b l n).sli = s.sli ∧
    (s.cueReport c e r i b l n).tbm = s.tbm ∧
    (s.cueReport c e r i b l n).stg = s.stg ∧
    (s.cueReport c e r i b l n).swu = s.swu ∧
    (s.cueReport c e r i b l n).sce = s.sce ∧
    (s.cueReport c e r i b l n).dlu = s.dlu ∧
    (s.cueReport c e r i b l n).pmn = s.pmn ∧
    (s.cueReport c e r i b l n).tck = s.tck ∧
    (s.cueReport c e r i b l n).csq = s.csq ∧
    (s.cueReport c e r i b l n).tun = s.tun ∧
    (s.cueReport c e r i b l n).frame = s.frame ∧
    (s.cueReport c e r i b l n).pending = s.pending := by
  unfold State.cueReport
  simp

@[simp] theorem State.clearCuePins_frame :
    (s.clearCuePins).sli = s.sli ∧
    (s.clearCuePins).cch = s.cch ∧
    (s.clearCuePins).tbm = s.tbm ∧
    (s.clearCuePins).swu = s.swu ∧
    (s.clearCuePins).sce = s.sce ∧
    (s.clearCuePins).dlu = s.dlu ∧
    (s.clearCuePins).pmn = s.pmn ∧
    (s.clearCuePins).tck = s.tck ∧
    (s.clearCuePins).csq = s.csq ∧
    (s.clearCuePins).tun = s.tun ∧
    (s.clearCuePins).frame = s.frame ∧
    (s.clearCuePins).pending = s.pending := by
  unfold State.clearCuePins
  simp

@[simp] theorem State.applyTempo_frame (t : Nat) :
    (s.applyTempo t).sli = s.sli ∧
    (s.applyTempo t).cch = s.cch ∧
    (s.applyTempo t).tbm = s.tbm ∧
    (s.applyTempo t).stg = s.stg ∧
    (s.applyTempo t).sce = s.sce ∧
    (s.applyTempo t).pmn = s.pmn ∧
    (s.applyTempo t).tun = s.tun ∧
    (s.applyTempo t).frame = s.frame ∧
    (s.applyTempo t).pending = s.pending ∧
    (s.applyTempo t).swu.stack = s.swu.stack := by
  unfold State.applyTempo
  split <;> simp

@[simp] theorem State.lookAhead_frame (i : Nat) :
    ((s.lookAhead i).1).sli = s.sli ∧
    ((s.lookAhead i).1).cch = s.cch ∧
    ((s.lookAhead i).1).tbm = s.tbm ∧
    ((s.lookAhead i).1).swu = s.swu ∧
    ((s.lookAhead i).1).sce = s.sce ∧
    ((s.lookAhead i).1).dlu = s.dlu ∧
    ((s.lookAhead i).1).pmn = s.pmn ∧
    ((s.lookAhead i).1).tck = s.tck ∧
    ((s.lookAhead i).1).tun = s.tun ∧
    ((s.lookAhead i).1).frame = s.frame ∧
    ((s.lookAhead i).1).pending = s.pending := by
  unfold State.lookAhead
  try dsimp only
  (repeat' split) <;> simp

@[simp] theorem State.cueSwitch_frame (q : Cue) :
    ((s.cueSwitch q).1).sli = s.sli ∧
    ((s.cueSwitch q).1).tbm = s.tbm ∧
    ((s.cueSwitch q).1).sce = s.sce ∧
    ((s.cueSwitch q).1).dlu = s.dlu ∧
    ((s.cueSwitch q).1).pmn = s.pmn ∧
    ((s.cueSwitch q).1).tck = s.tck ∧
    ((s.cueSwitch q).1).csq = s.csq ∧
    ((s.cueSwitch q).1).tun = s.tun ∧
    ((s.cueSwitch q).1).frame = s.frame ∧
    ((s.cueSwitch q).1).pending = s.pending := by
  unfold State.cueSwitch
  split <;> simp

@[simp] theorem State.loadRecord_frame (i : Nat) :
    (s.loadRecord i).sli = s.sli ∧
    (s.loadRecord i).tbm = s.tbm ∧
    (s.loadRecord i).sce = s.sce ∧
    (s.loadRecord i).pmn = s.pmn ∧
    (s.loadRecord i).tun = s.tun ∧
    (s.loadRecord i).frame = s.frame ∧
    (s.loadRecord i).pending = s.pending := by
  unfold State.loadRecord
  simp

@[simp] theorem State.listEnd_frame (r : EndReason) (i b : Nat) :
    (s.listEnd r i b).sli = s.sli ∧
    (s.listEnd r i b).tbm = s.tbm ∧
    (s.listEnd r i b).swu = s.swu ∧
    (s.listEnd r i b).sce = s.sce ∧
    (s.listEnd r i b).dlu = s.dlu ∧
    (s.listEnd r i b).pmn = s.pmn ∧
    (s.listEnd r i b).tck = s.tck ∧
    (s.listEnd r i b).tun = s.tun ∧
    (s.listEnd r i b).frame = s.frame ∧
    (s.listEnd r i b).pending = s.pending := by
  unfold State.listEnd
  simp

@[simp] theorem State.leaveResidue_frame (i : Nat) :
    (s.leaveResidue i).sli = s.sli ∧
    (s.leaveResidue i).cch = s.cch ∧
    (s.leaveResidue i).stg = s.stg ∧
    (s.leaveResidue i).swu = s.swu ∧
    (s.leaveResidue i).sce = s.sce ∧
    (s.leaveResidue i).dlu = s.dlu ∧
    (s.leaveResidue i).pmn = s.pmn ∧
    (s.leaveResidue i).tck = s.tck ∧
    (s.leaveResidue i).csq = s.csq ∧
    (s.leaveResidue i).tun = s.tun ∧
    (s.leaveResidue i).frame = s.frame ∧
    (s.leaveResidue i).pending = s.pending := by
  unfold State.leaveResidue
  split <;> simp

@[simp] theorem State.followOn_frame (i : Nat) :
    (s.followOn i).sli = s.sli ∧
    (s.followOn i).tbm = s.tbm ∧
    (s.followOn i).sce = s.sce ∧
    (s.followOn i).pmn = s.pmn ∧
    (s.followOn i).tun = s.tun ∧
    (s.followOn i).frame = s.frame ∧
    (s.followOn i).pending = s.pending := by
  unfold State.followOn
  (repeat' split) <;> simp

@[simp] theorem State.endCue_frame :
    (s.endCue).sli = s.sli ∧
    (s.endCue).sce = s.sce ∧
    (s.endCue).pmn = s.pmn ∧
    (s.endCue).tun = s.tun ∧
    (s.endCue).frame = s.frame ∧
    (s.endCue).pending = s.pending := by
  unfold State.endCue
  split <;> simp

@[simp] theorem State.skipCue_frame :
    (s.skipCue).sli = s.sli ∧
    (s.skipCue).tbm = s.tbm ∧
    (s.skipCue).sce = s.sce ∧
    (s.skipCue).pmn = s.pmn ∧
    (s.skipCue).tun = s.tun ∧
    (s.skipCue).frame = s.frame ∧
    (s.skipCue).pending = s.pending := by
  unfold State.skipCue
  (repeat' split) <;> simp

@[simp] theorem State.stopList_frame :
    (s.stopList).sli = s.sli ∧
    (s.stopList).swu = s.swu ∧
    (s.stopList).sce = s.sce ∧
    (s.stopList).dlu = s.dlu ∧
    (s.stopList).pmn = s.pmn ∧
    (s.stopList).tck = s.tck ∧
    (s.stopList).tun = s.tun ∧
    (s.stopList).frame = s.frame ∧
    (s.stopList).pending = s.pending := by
  unfold State.stopList
  (repeat' split) <;> simp

@[simp] theorem State.startList_frame (l : Fin 16) (a b : Nat) (t : Byte) :
    (s.startList l a b t).sli = s.sli ∧
    (s.startList l a b t).swu = s.swu ∧
    (s.startList l a b t).sce = s.sce ∧
    (s.startList l a b t).dlu = s.dlu ∧
    (s.startList l a b t).pmn = s.pmn ∧
    (s.startList l a b t).tck = s.tck ∧
    (s.startList l a b t).tun = s.tun ∧
    (s.startList l a b t).frame = s.frame ∧
    (s.startList l a b t).pending = s.pending := by
  unfold State.startList
  simp

@[simp] theorem State.cueStart_frame (l : Fin 16) (a : Nat) (t : Byte) :
    ((s.cueStart l a t).1).sli = s.sli ∧
    ((s.cueStart l a t).1).swu = s.swu ∧
    ((s.cueStart l a t).1).sce = s.sce ∧
    ((s.cueStart l a t).1).dlu = s.dlu ∧
    ((s.cueStart l a t).1).pmn = s.pmn ∧
    ((s.cueStart l a t).1).tck = s.tck ∧
    ((s.cueStart l a t).1).tun = s.tun ∧
    ((s.cueStart l a t).1).frame = s.frame ∧
    ((s.cueStart l a t).1).pending = s.pending := by
  unfold State.cueStart
  split <;> simp

@[simp] theorem State.beginList_frame :
    (s.beginList).sli = s.sli ∧
    (s.beginList).tbm = s.tbm ∧
    (s.beginList).sce = s.sce ∧
    (s.beginList).pmn = s.pmn ∧
    (s.beginList).tun = s.tun ∧
    (s.beginList).frame = s.frame ∧
    (s.beginList).pending = s.pending := by
  unfold State.beginList
  split <;> simp

@[simp] theorem State.beginCountIn_frame :
    (s.beginCountIn).sli = s.sli ∧
    (s.beginCountIn).tbm = s.tbm ∧
    (s.beginCountIn).stg = s.stg ∧
    (s.beginCountIn).sce = s.sce ∧
    (s.beginCountIn).pmn = s.pmn ∧
    (s.beginCountIn).tun = s.tun ∧
    (s.beginCountIn).frame = s.frame ∧
    (s.beginCountIn).pending = s.pending ∧
    (s.beginCountIn).swu.stack = s.swu.stack := by
  unfold State.beginCountIn
  split <;> simp

@[simp] theorem State.endCountIn_frame :
    (s.endCountIn).sli = s.sli ∧
    (s.endCountIn).tbm = s.tbm ∧
    (s.endCountIn).sce = s.sce ∧
    (s.endCountIn).pmn = s.pmn ∧
    (s.endCountIn).tun = s.tun ∧
    (s.endCountIn).frame = s.frame ∧
    (s.endCountIn).pending = s.pending := by
  unfold State.endCountIn
  split <;> simp

@[simp] theorem State.reloadVamp_frame :
    (s.reloadVamp).sli = s.sli ∧
    (s.reloadVamp).cch = s.cch ∧
    (s.reloadVamp).tbm = s.tbm ∧
    (s.reloadVamp).stg = s.stg ∧
    (s.reloadVamp).swu = s.swu ∧
    (s.reloadVamp).sce = s.sce ∧
    (s.reloadVamp).dlu = s.dlu ∧
    (s.reloadVamp).pmn = s.pmn ∧
    (s.reloadVamp).tck = s.tck ∧
    (s.reloadVamp).tun = s.tun ∧
    (s.reloadVamp).frame = s.frame ∧
    (s.reloadVamp).pending = s.pending := by
  unfold State.reloadVamp
  split <;> simp

@[simp] theorem State.clearHeldOp_frame :
    (s.clearHeldOp).sli = s.sli ∧
    (s.clearHeldOp).cch = s.cch ∧
    (s.clearHeldOp).tbm = s.tbm ∧
    (s.clearHeldOp).stg = s.stg ∧
    (s.clearHeldOp).swu = s.swu ∧
    (s.clearHeldOp).sce = s.sce ∧
    (s.clearHeldOp).dlu = s.dlu ∧
    (s.clearHeldOp).pmn = s.pmn ∧
    (s.clearHeldOp).tck = s.tck ∧
    (s.clearHeldOp).tun = s.tun ∧
    (s.clearHeldOp).frame = s.frame ∧
    (s.clearHeldOp).pending = s.pending := by
  unfold State.clearHeldOp
  simp

@[simp] theorem State.holdOp_frame (h : HeldOp) :
    ((s.holdOp h).1).sli = s.sli ∧
    ((s.holdOp h).1).cch = s.cch ∧
    ((s.holdOp h).1).tbm = s.tbm ∧
    ((s.holdOp h).1).stg = s.stg ∧
    ((s.holdOp h).1).swu = s.swu ∧
    ((s.holdOp h).1).sce = s.sce ∧
    ((s.holdOp h).1).dlu = s.dlu ∧
    ((s.holdOp h).1).pmn = s.pmn ∧
    ((s.holdOp h).1).tck = s.tck ∧
    ((s.holdOp h).1).tun = s.tun ∧
    ((s.holdOp h).1).frame = s.frame ∧
    ((s.holdOp h).1).pending = s.pending := by
  unfold State.holdOp
  (repeat' split) <;> simp

@[simp] theorem State.cueOp_frame (o : CueOp) :
    ((s.cueOp o).1).sli = s.sli ∧
    ((s.cueOp o).1).swu = s.swu ∧
    ((s.cueOp o).1).sce = s.sce ∧
    ((s.cueOp o).1).dlu = s.dlu ∧
    ((s.cueOp o).1).pmn = s.pmn ∧
    ((s.cueOp o).1).tck = s.tck ∧
    ((s.cueOp o).1).tun = s.tun ∧
    ((s.cueOp o).1).frame = s.frame ∧
    ((s.cueOp o).1).pending = s.pending := by
  cases o <;> simp only [State.cueOp] <;> (repeat' split) <;> simp

@[simp] theorem State.toggleStage_frame (i : Nat) :
    ((s.toggleStage i).1).sli = s.sli ∧
    ((s.toggleStage i).1).cch = s.cch ∧
    ((s.toggleStage i).1).tbm = s.tbm ∧
    ((s.toggleStage i).1).stg = s.stg ∧
    ((s.toggleStage i).1).swu = s.swu ∧
    ((s.toggleStage i).1).dlu = s.dlu ∧
    ((s.toggleStage i).1).pmn = s.pmn ∧
    ((s.toggleStage i).1).tck = s.tck ∧
    ((s.toggleStage i).1).csq = s.csq ∧
    ((s.toggleStage i).1).tun = s.tun ∧
    ((s.toggleStage i).1).frame = s.frame ∧
    ((s.toggleStage i).1).pending = s.pending := by
  unfold State.toggleStage
  (repeat' split) <;> simp

@[simp] theorem State.applyExpMap_frame (p v i : Nat) :
    (s.applyExpMap p v i).sli = s.sli ∧
    (s.applyExpMap p v i).cch = s.cch ∧
    (s.applyExpMap p v i).tbm = s.tbm ∧
    (s.applyExpMap p v i).stg = s.stg ∧
    (s.applyExpMap p v i).swu = s.swu ∧
    (s.applyExpMap p v i).dlu = s.dlu ∧
    (s.applyExpMap p v i).pmn = s.pmn ∧
    (s.applyExpMap p v i).tck = s.tck ∧
    (s.applyExpMap p v i).csq = s.csq ∧
    (s.applyExpMap p v i).tun = s.tun ∧
    (s.applyExpMap p v i).frame = s.frame ∧
    (s.applyExpMap p v i).pending = s.pending := by
  unfold State.applyExpMap
  try dsimp only
  (repeat' split) <;> simp

@[simp] theorem State.applyExpMaps_frame (p v : Nat) :
    (s.applyExpMaps p v).sli = s.sli ∧
    (s.applyExpMaps p v).cch = s.cch ∧
    (s.applyExpMaps p v).tbm = s.tbm ∧
    (s.applyExpMaps p v).stg = s.stg ∧
    (s.applyExpMaps p v).swu = s.swu ∧
    (s.applyExpMaps p v).dlu = s.dlu ∧
    (s.applyExpMaps p v).pmn = s.pmn ∧
    (s.applyExpMaps p v).tck = s.tck ∧
    (s.applyExpMaps p v).csq = s.csq ∧
    (s.applyExpMaps p v).tun = s.tun ∧
    (s.applyExpMaps p v).frame = s.frame ∧
    (s.applyExpMaps p v).pending = s.pending := by
  simp [State.applyExpMaps, forEach]

@[simp] theorem State.sceneGate_frame (g : GateNo) (r : Gate) (d : Dispatch) :
    ((s.sceneGate g r d).1).sli = s.sli ∧
    ((s.sceneGate g r d).1).tbm = s.tbm ∧
    ((s.sceneGate g r d).1).sce = s.sce ∧
    ((s.sceneGate g r d).1).dlu = s.dlu ∧
    ((s.sceneGate g r d).1).pmn = s.pmn ∧
    ((s.sceneGate g r d).1).tck = s.tck ∧
    ((s.sceneGate g r d).1).csq = s.csq ∧
    ((s.sceneGate g r d).1).tun = s.tun ∧
    ((s.sceneGate g r d).1).frame = s.frame ∧
    ((s.sceneGate g r d).1).pending = s.pending := by
  unfold State.sceneGate
  simp

@[simp] theorem State.momentaryPush_frame (g : GateNo) (r : Gate) (d : Dispatch) :
    ((s.momentaryPush g r d).1).sli = s.sli ∧
    ((s.momentaryPush g r d).1).tbm = s.tbm ∧
    ((s.momentaryPush g r d).1).sce = s.sce ∧
    ((s.momentaryPush g r d).1).dlu = s.dlu ∧
    ((s.momentaryPush g r d).1).pmn = s.pmn ∧
    ((s.momentaryPush g r d).1).tck = s.tck ∧
    ((s.momentaryPush g r d).1).csq = s.csq ∧
    ((s.momentaryPush g r d).1).frame = s.frame ∧
    ((s.momentaryPush g r d).1).pending = s.pending := by
  unfold State.momentaryPush
  try dsimp only
  (repeat' split) <;> simp

@[simp] theorem State.momentaryGate_frame (g : GateNo) (r : Gate) (d : Dispatch) :
    ((s.momentaryGate g r d).1).sli = s.sli ∧
    ((s.momentaryGate g r d).1).tbm = s.tbm ∧
    ((s.momentaryGate g r d).1).sce = s.sce ∧
    ((s.momentaryGate g r d).1).dlu = s.dlu ∧
    ((s.momentaryGate g r d).1).pmn = s.pmn ∧
    ((s.momentaryGate g r d).1).tck = s.tck ∧
    ((s.momentaryGate g r d).1).csq = s.csq ∧
    ((s.momentaryGate g r d).1).frame = s.frame ∧
    ((s.momentaryGate g r d).1).pending = s.pending := by
  unfold State.momentaryGate
  split <;> simp

@[simp] theorem State.gatePop_frame (g : GateNo) (d : Dispatch) :
    ((s.gatePop g d).1).sli = s.sli ∧
    ((s.gatePop g d).1).tbm = s.tbm ∧
    ((s.gatePop g d).1).sce = s.sce ∧
    ((s.gatePop g d).1).dlu = s.dlu ∧
    ((s.gatePop g d).1).pmn = s.pmn ∧
    ((s.gatePop g d).1).tck = s.tck ∧
    ((s.gatePop g d).1).csq = s.csq ∧
    ((s.gatePop g d).1).frame = s.frame ∧
    ((s.gatePop g d).1).pending = s.pending := by
  unfold State.gatePop
  simp

@[simp] theorem State.tunerGate_frame (g : GateNo) (d : Dispatch) :
    ((s.tunerGate g d).1).sli = s.sli ∧
    ((s.tunerGate g d).1).tbm = s.tbm ∧
    ((s.tunerGate g d).1).sce = s.sce ∧
    ((s.tunerGate g d).1).dlu = s.dlu ∧
    ((s.tunerGate g d).1).pmn = s.pmn ∧
    ((s.tunerGate g d).1).tck = s.tck ∧
    ((s.tunerGate g d).1).csq = s.csq ∧
    ((s.tunerGate g d).1).frame = s.frame ∧
    ((s.tunerGate g d).1).pending = s.pending := by
  unfold State.tunerGate
  (repeat' split) <;> simp

@[simp] theorem State.cueStartGate_frame (r : Gate) (d : Dispatch) :
    ((s.cueStartGate r d).1).sli = s.sli ∧
    ((s.cueStartGate r d).1).swu = s.swu ∧
    ((s.cueStartGate r d).1).sce = s.sce ∧
    ((s.cueStartGate r d).1).dlu = s.dlu ∧
    ((s.cueStartGate r d).1).pmn = s.pmn ∧
    ((s.cueStartGate r d).1).tck = s.tck ∧
    ((s.cueStartGate r d).1).tun = s.tun ∧
    ((s.cueStartGate r d).1).frame = s.frame ∧
    ((s.cueStartGate r d).1).pending = s.pending := by
  unfold State.cueStartGate
  split <;> simp

@[simp] theorem State.cueOpGate_frame (r : Gate) :
    ((s.cueOpGate r).1).sli = s.sli ∧
    ((s.cueOpGate r).1).swu = s.swu ∧
    ((s.cueOpGate r).1).sce = s.sce ∧
    ((s.cueOpGate r).1).dlu = s.dlu ∧
    ((s.cueOpGate r).1).pmn = s.pmn ∧
    ((s.cueOpGate r).1).tck = s.tck ∧
    ((s.cueOpGate r).1).tun = s.tun ∧
    ((s.cueOpGate r).1).frame = s.frame ∧
    ((s.cueOpGate r).1).pending = s.pending := by
  unfold State.cueOpGate
  split <;> simp

@[simp] theorem State.gateAction_frame (g : GateNo) (r : Gate) (d : Dispatch) :
    ((s.gateAction g r d).1).sli = s.sli ∧
    ((s.gateAction g r d).1).pmn = s.pmn ∧
    ((s.gateAction g r d).1).frame = s.frame ∧
    ((s.gateAction g r d).1).pending = s.pending := by
  unfold State.gateAction
  split <;> simp

@[simp] theorem State.dispatchElse_frame (d : Dispatch) (g : GateNo) :
    ((s.dispatchElse d g).1).sli = s.sli ∧
    ((s.dispatchElse d g).1).pmn = s.pmn ∧
    ((s.dispatchElse d g).1).frame = s.frame ∧
    ((s.dispatchElse d g).1).pending = s.pending := by
  unfold State.dispatchElse
  (repeat' split) <;> simp

@[simp] theorem State.dispatch_frame (d : Dispatch) (g : GateNo) :
    ((s.dispatch d g).1).sli = s.sli ∧
    ((s.dispatch d g).1).pmn = s.pmn ∧
    ((s.dispatch d g).1).frame = s.frame ∧
    ((s.dispatch d g).1).pending = s.pending := by
  unfold State.dispatch
  (repeat' split) <;> simp

@[simp] theorem State.gateReport_frame (d : Dispatch) (g : GateNo) (e : Option GateNo) (c : Code) :
    (s.gateReport d g e c).sli = s.sli ∧
    (s.gateReport d g e c).tbm = s.tbm ∧
    (s.gateReport d g e c).stg = s.stg ∧
    (s.gateReport d g e c).swu = s.swu ∧
    (s.gateReport d g e c).sce = s.sce ∧
    (s.gateReport d g e c).dlu = s.dlu ∧
    (s.gateReport d g e c).pmn = s.pmn ∧
    (s.gateReport d g e c).tck = s.tck ∧
    (s.gateReport d g e c).csq = s.csq ∧
    (s.gateReport d g e c).tun = s.tun ∧
    (s.gateReport d g e c).frame = s.frame ∧
    (s.gateReport d g e c).pending = s.pending := by
  unfold State.gateReport
  simp

@[simp] theorem State.footDispatch_frame (f : SwitchNo) (b : Bool) (e : Nat) (g : GateNo) :
    (s.footDispatch f b e g).sli = s.sli ∧
    (s.footDispatch f b e g).pmn = s.pmn ∧
    (s.footDispatch f b e g).frame = s.frame ∧
    (s.footDispatch f b e g).pending = s.pending := by
  unfold State.footDispatch
  try dsimp only
  (repeat' split) <;> simp

@[simp] theorem State.footGate_frame (f : SwitchNo) (b : Bool) (e : Nat) (g : Option GateNo) :
    (s.footGate f b e g).sli = s.sli ∧
    (s.footGate f b e g).pmn = s.pmn ∧
    (s.footGate f b e g).frame = s.frame ∧
    (s.footGate f b e g).pending = s.pending := by
  unfold State.footGate
  split <;> simp

@[simp] theorem State.pedalReport_frame (e n : Nat) (d : Bool) (v : Nat) :
    (s.pedalReport e n d v).sli = s.sli ∧
    (s.pedalReport e n d v).tbm = s.tbm ∧
    (s.pedalReport e n d v).stg = s.stg ∧
    (s.pedalReport e n d v).swu = s.swu ∧
    (s.pedalReport e n d v).sce = s.sce ∧
    (s.pedalReport e n d v).dlu = s.dlu ∧
    (s.pedalReport e n d v).pmn = s.pmn ∧
    (s.pedalReport e n d v).tck = s.tck ∧
    (s.pedalReport e n d v).csq = s.csq ∧
    (s.pedalReport e n d v).tun = s.tun ∧
    (s.pedalReport e n d v).frame = s.frame ∧
    (s.pedalReport e n d v).pending = s.pending := by
  unfold State.pedalReport
  split <;> simp

@[simp] theorem State.expressionChange_frame (b : Bool) (v : Nat) :
    (s.expressionChange b v).sli = s.sli ∧
    (s.expressionChange b v).tbm = s.tbm ∧
    (s.expressionChange b v).stg = s.stg ∧
    (s.expressionChange b v).swu = s.swu ∧
    (s.expressionChange b v).dlu = s.dlu ∧
    (s.expressionChange b v).tck = s.tck ∧
    (s.expressionChange b v).csq = s.csq ∧
    (s.expressionChange b v).tun = s.tun ∧
    (s.expressionChange b v).frame = s.frame ∧
    (s.expressionChange b v).pending = s.pending := by
  unfold State.expressionChange
  simp

@[simp] theorem State.pressEvent_frame (f : SwitchNo) :
    (s.pressEvent f).sli = s.sli ∧
    (s.pressEvent f).frame = s.frame ∧
    (s.pressEvent f).pending = s.pending := by
  unfold State.pressEvent
  try dsimp only
  (repeat' split) <;> simp

@[simp] theorem State.holdEvent_frame (f : SwitchNo) :
    (s.holdEvent f).sli = s.sli ∧
    (s.holdEvent f).frame = s.frame ∧
    (s.holdEvent f).pending = s.pending := by
  unfold State.holdEvent
  simp

@[simp] theorem State.releaseEvent_frame (f : SwitchNo) :
    (s.releaseEvent f).sli = s.sli ∧
    (s.releaseEvent f).frame = s.frame ∧
    (s.releaseEvent f).pending = s.pending := by
  unfold State.releaseEvent
  try dsimp only
  (repeat' split) <;> simp

end Sys2Proof.Machine
end

