-- ==== Sys2Proof/Laws/Chain.lean ====
section
/-! SUPPORT. One frame of a chain, of a delay line and of the engine in the terms of the statements: what
`Copy.run` and `State.audio` give is what the closed forms of Safety.lean say; and what the handing of
the governing stages leaves in a line. -/

namespace Sys2Proof.Machine

theorem moveGain_enabled (st : Stage) : moveGain st.gain st.enabled = st.frameGain := rfl

theorem findSome_mapIdx_cons {α : Type} (f : Nat → α → Option Int) (a : α) (l : List α) :
    ((a :: l).mapIdx f).findSome? id = (f 0 a).or ((l.mapIdx fun i => f (i + 1)).findSome? id) := by
  simp only [List.mapIdx_cons, List.findSome?_cons, id]
  cases f 0 a <;> rfl

/-- The input of each stage of a list, from the input of the first (R70, R71). -/
def chainInput (f : FrameIn) (taps : List Word24) (sts : List Stage) (x : Int) (k : Nat) : Int :=
  (sts.take k).foldl (fun x st => x + share ((st.process f taps x).p - x) st.frameGain) x

theorem chainInput_zero (f : FrameIn) (taps : List Word24) (sts : List Stage) (x : Int) :
    chainInput f taps sts x 0 = x := by simp [chainInput]

theorem chainInput_succ (f : FrameIn) (taps : List Word24) (st : Stage) (sts : List Stage) (x : Int)
    (k : Nat) : chainInput f taps (st :: sts) x (k + 1) =
      chainInput f taps sts (x + share ((st.process f taps x).p - x) st.frameGain) k := rfl

/-- Everything a run of the stages gives. -/
theorem runStages_eq (f : FrameIn) (taps : List Word24) (sts : List Stage) (x : Int) :
    let r := runStages f taps sts x
    let at_ := chainInput f taps sts x
    r.out = at_ sts.length ∧
    r.stages = sts.mapIdx (fun k st =>
      let p := st.process f taps (at_ k)
      { st with gain := st.frameGain, st := p.st, clips := min 65535 (st.clips + p.clips) }) ∧
    r.clips = (sts.mapIdx fun k st => (st.process f taps (at_ k)).clips).sum ∧
    r.amp = (sts.mapIdx fun k st => if st.kind = .cab then some (at_ k) else none).findSome? id ∧
    r.loop = ((sts.mapIdx fun k st => if st.kind = .loop then
      some (share (st.process f taps (at_ k)).loop st.frameGain) else none).findSome? id).getD 0 ∧
    ∀ (l : LineNo) (w : Nat), sendSum l w r.sends =
      (sts.mapIdx fun k st => if lineRef st.kind (st.params.map Param.set) = some l.val then
        share (share (share (at_ k) st.frameGain) (st.val 1)) w else 0).sum := by
  induction sts generalizing x with
  | nil => simp [runStages, chainInput, sendSum]
  | cons st rest ih =>
    obtain ⟨h1, h2, h3, h4, h5, h6⟩ := ih (x + share ((st.process f taps x).p - x) st.frameGain)
    refine ⟨?_, ?_, ?_, ?_, ?_, ?_⟩
    · exact h1
    · simp only [runStages, moveGain_enabled, List.mapIdx_cons, chainInput_zero, chainInput_succ]
      exact congrArg _ h2
    · simp only [runStages, moveGain_enabled, List.mapIdx_cons, chainInput_zero, chainInput_succ,
        List.sum_cons]
      exact congrArg _ h3
    · rw [findSome_mapIdx_cons]
      simp only [runStages, moveGain_enabled, chainInput_zero, chainInput_succ]
      split
      · rfl
      · exact h4
    · rw [findSome_mapIdx_cons]
      simp only [runStages, moveGain_enabled, chainInput_zero, chainInput_succ]
      split
      · rfl
      · exact h5
    · intro l w
      simp only [List.mapIdx_cons, chainInput_zero, chainInput_succ, List.sum_cons, ← h6 l w]
      simp only [runStages, moveGain_enabled]
      cases lineRef st.kind (st.params.map Param.set) with
      | none => simp
      | some k => simp [sendSum]

/-- One frame of a running copy in the terms of the statements (R70, R71, R92). -/
theorem Copy.run_eq (f : FrameIn) (c : Copy) :
    (c.run f).copy = c.afterFrame f ∧ (c.run f).out = c.frameOut f ∧ (c.run f).amp = c.ampTap f ∧
    (c.run f).loop = c.loopSend f ∧ (c.run f).clips = c.stageClips f ∧
    (c.run f).mixClips = clipOf (c.levelled f) ∧
    ∀ (l : LineNo) (w : Nat), sendSum l w (c.run f).sends = c.sendInto f l w := by
  obtain ⟨h1, h2, h3, h4, h5, h6⟩ := runStages_eq f c.taps c.stages (inputOf c.inputSelect f)
  have hout : (c.run f).out = c.frameOut f := by
    simp only [Copy.run, Copy.frameOut, Copy.levelled, levelStep, clampClip, h1]; rfl
  refine ⟨?_, hout, ?_, h5, h3, ?_, h6⟩
  · exact congrArg (fun x => ({ c with stages := x } : Copy)) h2
  · have : (c.run f).amp = (runStages f c.taps c.stages (inputOf c.inputSelect f)).amp.getD
        (c.run f).out := rfl
    rw [this, h4, hout]; rfl
  · simp only [Copy.run, levelStep, clampClip, h1]; rfl

/-- The tap of a line in a frame, behind the move of the tap-fade position (R106, R110). -/
theorem Line.sample_advance (l : Line) : l.advance.sample = l.tapSample := by
  unfold Line.advance Line.tapSample Line.sample Line.fading
  by_cases h : l.target = l.current
  · simp [h, Line.tap]
  · simp [h, Line.tap, crossMix]

theorem Line.advance_eq (l : Line) :
    l.advance = { l with position := if l.target = l.current then l.position else l.position + 1 } := by
  obtain ⟨_, _, _, cur, tgt⟩ := l
  by_cases h : tgt = cur <;> simp [Line.advance, Line.fading, h]

theorem Line.wetOut_advance (l : Line) : l.advance.wetOut = l.wetSample := by
  unfold Line.wetOut Line.wetSample
  rw [Line.sample_advance, Line.advance_eq]

theorem Line.fadeFactor_advance (w : Option Nat) (l : Line) :
    l.advance.fadeFactor w = l.frameFactor w := by
  rw [Line.advance_eq]
  unfold Line.fadeFactor Line.frameFactor
  cases w <;> simp [Config.unity]

/-- The parts of a line in the FOH sums (R81). -/
theorem Line.fohParts_advance (w : Option Nat) (l : Line) :
    l.advance.fohParts w = if l.state = .free then (0, 0) else
      (share (share l.wetSample (l.frameFactor w)) l.pan,
       share (share l.wetSample (l.frameFactor w)) (32768 - l.pan : Int)) := by
  have h1 : l.advance.state = l.state := by rw [Line.advance_eq]
  have h2 : l.advance.pan = l.pan := by rw [Line.advance_eq]
  unfold Line.fohParts
  rw [h1, h2, Line.wetOut_advance, Line.fadeFactor_advance]

/-- The write of a frame into a line (R111, R112). -/
theorem Line.write_advance (terms : Int) (l : Line) : l.advance.write terms =
    ⟨{ l with
       position := if l.target = l.current then l.position else l.position + 1
       mem := (clampSample (terms + share l.tapSample l.feedback) :: l.mem).take 98304
       peak := if l.state = .tail then max l.peak l.wetSample.natAbs else l.peak },
     clipOf (terms + share l.tapSample l.feedback)⟩ := by
  unfold Line.write
  rw [Line.sample_advance, Line.wetOut_advance, Line.advance_eq]
  rfl

/-! ### The engine in a frame -/

theorem elim_map {α β γ : Type} (o : Option α) (f : α → β) (g : β → γ) (d : γ) :
    (o.map f).elim d g = o.elim d fun x => g (f x) := by cases o <;> rfl

theorem sumLines_advance (f : Line → Int) (v : Vector Line 4) :
    sumLines f (vmap Line.advance v) = (four.map fun l => f (v.get l).advance).sum := by
  rcases v with ⟨⟨xs⟩, h⟩
  match xs, h with
  | [a, b, c, d], _ => simp [sumLines, four, vmap, Vector.toList, Vector.get_eq_getElem]

theorem sum_ite {α β : Type} [AddCommMonoid β] (p : α → Bool) (g : α → β) (xs : List α) :
    (xs.map fun l => if p l then g l else 0).sum = ((xs.filter p).map g).sum := by
  induction xs with
  | nil => rfl
  | cons x xs ih => cases h : p x <;> simp [h, ih]

/-- Everything a frame of the engine and of the delay lines does (R70, R81–R84, R92, R107, R110–R112,
R114). -/
theorem State.audio_eq (f : FrameIn) (s : State) :
    let live := s.sce.live
    let fading := s.sce.fading
    let w := s.weight
    let line : LineNo → Line := fun l => s.dlu.lines.get l
    let wet : LineNo → Int := fun l => share (line l).wetSample ((line l).frameFactor w)
    let inUse := four.filter fun l => (line l).state ≠ .free
    let m := partyMix w (live.elim f.a (Copy.frameOut f)) (fading.elim f.a (Copy.frameOut f))
    let left := m + (inUse.map fun l => share (wet l) (line l).pan).sum
    let right := m + (inUse.map fun l => share (wet l) (32768 - (line l).pan : Int)).sum
    let out := gained (moveGain s.sce.mute (!s.engaged)) s.sce.fade
    let terms : LineNo → Int := fun l =>
      live.elim 0 (Copy.sendInto f l (w.getD 32768))
        + fading.elim 0 (Copy.sendInto f l (32768 - w.getD 32768))
        + share (line l).tapSample (line l).feedback
    let mixClips := live.elim 0 (fun c => clipOf (c.levelled f))
      + fading.elim 0 (fun c => clipOf (c.levelled f)) + clipOf left + clipOf right
      + (inUse.map fun l => clipOf (terms l)).sum
    let stageClips := live.elim 0 (Copy.stageClips f) + fading.elim 0 (Copy.stageClips f)
    (s.audio f).sce = { s.sce with
      live := live.map (Copy.afterFrame f), fading := fading.map (Copy.afterFrame f)
      mute := moveGain s.sce.mute (!s.engaged), fade := min 32768 (s.sce.fade + 8)
      mixClips := min 65535 (s.sce.mixClips + mixClips)
      clip := s.sce.clip || decide (0 < mixClips + stageClips) } ∧
    (s.audio f).sli = { s.sli with outbound := { s.sli.outbound with
      fohL := out (clampSample left)
      fohR := out (clampSample right)
      ampFeed := out
        (partyMix w (live.elim f.a (Copy.ampTap f)) (fading.elim f.a (Copy.ampTap f)))
      direct := share (live.elim f.a fun c => inputOf c.inputSelect f) s.sce.fade
      loopSend := out
        (partyMix w (live.elim 0 (Copy.loopSend f)) (fading.elim 0 (Copy.loopSend f))) } } ∧
    ∀ l, (s.audio f).dlu.lines.get l =
      if (line l).state = .free then line l
      else
        { line l with
          position := if (line l).target = (line l).current then (line l).position
                      else (line l).position + 1
          mem := (clampSample (terms l) :: (line l).mem).take 98304
          peak := if (line l).state = .tail then max (line l).peak (line l).wetSample.natAbs
                  else (line l).peak } := by
  intro live fading w line wet inUse m left right out terms mixClips stageClips
  have hrun : ∀ c : Copy, _ := Copy.run_eq f
  let A := live.map (·.run f)
  let B := fading.map (·.run f)
  have e1 : A.elim f.a CopyFrame.out = live.elim f.a (Copy.frameOut f) := by
    simp only [A, elim_map, hrun]
  have e2 : B.elim f.a CopyFrame.out = fading.elim f.a (Copy.frameOut f) := by
    simp only [B, elim_map, hrun]
  have e3 : A.elim f.a CopyFrame.amp = live.elim f.a (Copy.ampTap f) := by
    simp only [A, elim_map, hrun]
  have e4 : B.elim f.a CopyFrame.amp = fading.elim f.a (Copy.ampTap f) := by
    simp only [B, elim_map, hrun]
  have e5 : A.elim 0 CopyFrame.loop = live.elim 0 (Copy.loopSend f) := by
    simp only [A, elim_map, hrun]
  have e6 : B.elim 0 CopyFrame.loop = fading.elim 0 (Copy.loopSend f) := by
    simp only [B, elim_map, hrun]
  have e7 : A.elim 0 CopyFrame.mixClips = live.elim 0 fun c => clipOf (c.levelled f) := by
    simp only [A, elim_map, hrun]
  have e8 : B.elim 0 CopyFrame.mixClips = fading.elim 0 fun c => clipOf (c.levelled f) := by
    simp only [B, elim_map, hrun]
  have e9 : A.elim 0 CopyFrame.clips = live.elim 0 (Copy.stageClips f) := by
    simp only [A, elim_map, hrun]
  have e10 : B.elim 0 CopyFrame.clips = fading.elim 0 (Copy.stageClips f) := by
    simp only [B, elim_map, hrun]
  have e11 : A.map CopyFrame.copy = live.map (Copy.afterFrame f) := by
    simp only [A, Option.map_map]; congr 1; funext c; exact (hrun c).1
  have e12 : B.map CopyFrame.copy = fading.map (Copy.afterFrame f) := by
    simp only [B, Option.map_map]; congr 1; funext c; exact (hrun c).1
  have e13 : ∀ l x, sendSum l x (A.elim [] CopyFrame.sends) = live.elim 0 (Copy.sendInto f l x) := by
    intro l x; simp only [A]; cases live <;> [simp [sendSum]; exact (hrun _).2.2.2.2.2.2 l x]
  have e14 : ∀ l x,
      sendSum l x (B.elim [] CopyFrame.sends) = fading.elim 0 (Copy.sendInto f l x) := by
    intro l x; simp only [B]; cases fading <;> [simp [sendSum]; exact (hrun _).2.2.2.2.2.2 l x]
  let lines := vmap Line.advance s.dlu.lines
  have sums : ∀ g : Int × Int → Int, g (0, 0) = 0 →
      sumLines (fun l => g (l.fohParts w)) lines = (inUse.map fun l =>
        g (share (wet l) (line l).pan, share (wet l) (32768 - (line l).pan : Int))).sum := by
    intro g hg
    rw [sumLines_advance, ← sum_ite]
    congr 1; apply List.map_congr_left; intro l _
    rw [Line.fohParts_advance]
    by_cases h : (line l).state = .free <;> simp [line, h, hg, wet]
  have s1 := sums Prod.fst rfl
  have s2 := sums Prod.snd rfl
  let written : LineNo → Clipped Line := fun l =>
    if (lines.get l).state = .free then ⟨line l, 0⟩
    else (lines.get l).write (sendSum l (w.getD Config.unity) (A.elim [] CopyFrame.sends)
      + sendSum l (Config.unity - w.getD Config.unity) (B.elim [] CopyFrame.sends))
  have hw : ∀ l, written l = if (line l).state = .free then ⟨line l, 0⟩ else
      ⟨{ line l with
          position := if (line l).target = (line l).current then (line l).position
                      else (line l).position + 1
          mem := (clampSample (terms l) :: (line l).mem).take 98304
          peak := if (line l).state = .tail then max (line l).peak (line l).wetSample.natAbs
                  else (line l).peak }, clipOf (terms l)⟩ := by
    intro l
    have hadv : (line l).advance.state = (line l).state := by rw [Line.advance_eq]
    simp only [written, lines, vmap_get, e13, e14, Line.write_advance]
    rw [hadv]; rfl
  have hclips : (four.map fun l => (written l).clips).sum = (inUse.map fun l => clipOf (terms l)).sum := by
    rw [← sum_ite]
    congr 1; apply List.map_congr_left; intro l _
    rw [hw]
    by_cases h : (line l).state = .free <;> simp [h]
  let sumL := partyMix w (A.elim f.a CopyFrame.out) (B.elim f.a CopyFrame.out)
    + sumLines (fun l => (l.fohParts w).1) lines
  let sumR := partyMix w (A.elim f.a CopyFrame.out) (B.elim f.a CopyFrame.out)
    + sumLines (fun l => (l.fohParts w).2) lines
  have hL : sumL = left := by simp only [sumL, e1, e2, s1]; rfl
  have hR : sumR = right := by simp only [sumR, e1, e2, s2]; rfl
  refine ⟨?_, ?_, ?_⟩
  · have : (s.audio f).sce = { s.sce with
        live := A.map CopyFrame.copy, fading := B.map CopyFrame.copy
        mute := moveGain s.sce.mute (!s.engaged), fade := min 32768 (s.sce.fade + 8)
        mixClips := min 65535 (s.sce.mixClips + (A.elim 0 CopyFrame.mixClips
          + B.elim 0 CopyFrame.mixClips + clipOf sumL + clipOf sumR
          + (four.map fun l => (written l).clips).sum))
        clip := s.sce.clip || decide (0 < (A.elim 0 CopyFrame.mixClips
          + B.elim 0 CopyFrame.mixClips + clipOf sumL + clipOf sumR
          + (four.map fun l => (written l).clips).sum)
          + (A.elim 0 CopyFrame.clips + B.elim 0 CopyFrame.clips)) } := rfl
    rw [this, hclips, hL, hR, e7, e8, e9, e10, e11, e12]
  · have : (s.audio f).sli = { s.sli with outbound := { s.sli.outbound with
        fohL := out (clampSample sumL), fohR := out (clampSample sumR)
        ampFeed := out (partyMix w (A.elim f.a CopyFrame.amp) (B.elim f.a CopyFrame.amp))
        direct := share (live.elim f.a fun c => inputOf c.inputSelect f) s.sce.fade
        loopSend := out
          (partyMix w (A.elim 0 CopyFrame.loop) (B.elim 0 CopyFrame.loop)) } } := rfl
    rw [this, hL, hR, e3, e4, e5, e6]
  · intro l
    have : (s.audio f).dlu.lines.get l = (written l).val := by fin_cases l <;> rfl
    rw [this, hw]
    by_cases h : (line l).state = .free <;> simp [h]

/-! ### What the governing stages hand to the lines -/

theorem State.syncLine_get (l k : LineNo) (s : State) : (s.syncLine l).dlu.lines.get k =
    if k = l ∧ (s.dlu.lines.get l).state = .live then
      match s.sce.governing l with
      | some st => Line.takeParams s.tck.period st (s.dlu.lines.get l)
      | none => s.dlu.lines.get l
    else s.dlu.lines.get k := by
  unfold State.syncLine
  by_cases h : (s.dlu.lines.get l).state = .live
  · rw [if_pos h]
    cases hg : s.sce.governing l with
    | none => by_cases hk : k = l <;> simp [hk, h]
    | some st =>
      by_cases hk : k = l
      · simp [State.setLine, hk, h]
      · simp [State.setLine, hk, upd_get, Ne.symm hk]
  · simp [h]

/-- A LIVE line takes the values of the stage that governs it; any other line is kept (R109, R119). -/
theorem State.syncLines_get (k : LineNo) (s : State) : s.syncLines.dlu.lines.get k =
    if (s.dlu.lines.get k).state = .live then
      match s.sce.governing k with
      | some st => Line.takeParams s.tck.period st (s.dlu.lines.get k)
      | none => s.dlu.lines.get k
    else s.dlu.lines.get k := by
  unfold State.syncLines forEach four
  simp only [List.foldl_cons, List.foldl_nil]
  fin_cases k <;> simp [State.syncLine_get]

/-- Handing the values of the governing stages changes the lines alone. -/
theorem State.syncLines_eq (s : State) :
    s.syncLines = { s with dlu := { s.dlu with lines := s.syncLines.dlu.lines } } := by
  have h : ∀ l (s : State),
      s.syncLine l = { s with dlu := { s.dlu with lines := (s.syncLine l).dlu.lines } } := by
    intro l s; unfold State.syncLine; (repeat' split) <;> rfl
  unfold State.syncLines forEach four
  simp only [List.foldl_cons, List.foldl_nil]
  rw [h 3, h 2, h 1, h 0]

/-- The values of a governing stage taken in the model's steps are those of the closed form (R109, R119,
R120). -/
theorem Line.takeParams_eq (period : Nat) (st : Stage) (x : Line) :
    Line.takeParams period st x = x.handed period st := by
  have hb : ((st.val 9).toNat == 1) = decide (st.val 9 = 1) := by
    rw [Bool.eq_iff_iff]; simp; omega
  by_cases hm : x.mem = [] <;> by_cases hf : x.target = x.current <;>
    simp [Line.takeParams, Line.setTime, Line.handed, effectiveTime, Line.fading, Stage.nat,
      Config.timeMax, hb, hm, hf]

/-- The governing stages hand their values to the LIVE lines (R109). -/
theorem State.syncLines_handed (k : LineNo) (s : State) : s.syncLines.dlu.lines.get k =
    s.sce.handedLine s.tck.period k (s.dlu.lines.get k) := by
  rw [State.syncLines_get]
  unfold Sce.handedLine Sce.governing
  by_cases h : (s.dlu.lines.get k).state = .live
  · cases hl : s.sce.live.bind (·.delayOn k) <;> cases hf : s.sce.fading.bind (·.delayOn k) <;>
      simp [h, Line.takeParams_eq]
  · simp [h]

@[simp] theorem Line.handed_state (period : Nat) (st : Stage) (x : Line) :
    (x.handed period st).state = x.state := by
  unfold Line.handed; dsimp only; split_ifs <;> rfl

/-- A held next time stays behind a tap fade in flight (R120). -/
theorem Line.handed_held (period : Nat) (st : Stage) {x : Line}
    (hx : x.held ≠ none → x.target ≠ x.current) :
    (x.handed period st).held ≠ none → (x.handed period st).target ≠ (x.handed period st).current := by
  unfold Line.handed; dsimp only; split_ifs <;> simp_all

/-- Values handed again change nothing (R109, R120). -/
theorem Line.handed_handed (period : Nat) (st : Stage) {x : Line}
    (hx : x.held ≠ none → x.target ≠ x.current) :
    (x.handed period st).handed period st = x.handed period st := by
  have hh : x.target = x.current → x.held = none := fun h => by
    by_contra hn; exact hx hn h
  unfold Line.handed; dsimp only
  generalize (if (st.val 2).toNat = 0 then (st.val 3).toNat
    else max 1 (min (period * (st.val 4).toNat / (st.val 5).toNat) 98303)) = time
  by_cases hm : x.mem = []
  · simp [hm]
  · by_cases hf : x.target = x.current
    · by_cases ht : time = x.current <;> simp [hm, hf, ht, hh hf]
    · simp [hm, hf]

end Sys2Proof.Machine
end

