-- ==== Sys2Proof/Laws/StepFrames.lean ====
section
/-! SUPPORT. The blocks that the answers to messages, the steps of the link, of the block boundary and
of the end of a frame leave unchanged. -/

namespace Sys2Proof.Machine

variable (s : State)

@[simp] theorem answer_fst (r : State × Code) : (answer r).1 = r.1 := rfl
@[simp] theorem answer_snd (r : State × Code) : (answer r).2 = ack r.2 := rfl

theorem takeExpressions_frame (es : List PedalEvent) :
    (takeExpressions es s).sli = s.sli ∧ (takeExpressions es s).tbm = s.tbm ∧
    (takeExpressions es s).stg = s.stg ∧ (takeExpressions es s).swu = s.swu ∧
    (takeExpressions es s).dlu = s.dlu ∧ (takeExpressions es s).tck = s.tck ∧
    (takeExpressions es s).csq = s.csq ∧ (takeExpressions es s).tun = s.tun ∧
    (takeExpressions es s).frame = s.frame ∧ (takeExpressions es s).pending = s.pending := by
  induction es generalizing s with
  | nil => simp [takeExpressions]
  | cons e es ih =>
    cases e with
    | press f => simp [takeExpressions]
    | release f => simp [takeExpressions]
    | expression b v => simp [takeExpressions, ih]

@[simp] theorem State.withdraw_frame (i : SlotNo) :
    (s.withdraw i).sli = s.sli ∧
    (s.withdraw i).tbm = s.tbm ∧
    (s.withdraw i).sce = s.sce ∧
    (s.withdraw i).dlu = s.dlu ∧
    (s.withdraw i).pmn = s.pmn ∧
    (s.withdraw i).tck = s.tck ∧
    (s.withdraw i).csq = s.csq ∧
    (s.withdraw i).tun = s.tun ∧
    (s.withdraw i).frame = s.frame ∧
    (s.withdraw i).pending = s.pending ∧
    (s.withdraw i).swu.stack = s.swu.stack := by
  unfold State.withdraw
  try dsimp only
  (repeat' split) <;> simp

@[simp] theorem State.invalidate_frame (k : TableKind) (i : Nat) :
    (s.invalidate k i).sli = s.sli ∧
    (s.invalidate k i).tbm = s.tbm ∧
    (s.invalidate k i).sce = s.sce ∧
    (s.invalidate k i).dlu = s.dlu ∧
    (s.invalidate k i).pmn = s.pmn ∧
    (s.invalidate k i).tck = s.tck ∧
    (s.invalidate k i).csq = s.csq ∧
    (s.invalidate k i).tun = s.tun ∧
    (s.invalidate k i).frame = s.frame ∧
    (s.invalidate k i).pending = s.pending ∧
    (s.invalidate k i).swu.stack = s.swu.stack := by
  simp only [State.invalidate, forEach, four, List.foldl]
  (repeat' split) <;> simp

@[simp] theorem damagedEffect_frame (m : Message) :
    ((damagedEffect m s).1).sli = s.sli ∧
    ((damagedEffect m s).1).cch = s.cch ∧
    ((damagedEffect m s).1).tbm = s.tbm ∧
    ((damagedEffect m s).1).stg = s.stg ∧
    ((damagedEffect m s).1).swu = s.swu ∧
    ((damagedEffect m s).1).sce = s.sce ∧
    ((damagedEffect m s).1).dlu = s.dlu ∧
    ((damagedEffect m s).1).pmn = s.pmn ∧
    ((damagedEffect m s).1).tck = s.tck ∧
    ((damagedEffect m s).1).csq = s.csq ∧
    ((damagedEffect m s).1).tun = s.tun ∧
    ((damagedEffect m s).1).frame = s.frame ∧
    ((damagedEffect m s).1).pending = s.pending := by
  unfold damagedEffect
  simp

@[simp] theorem unknownEffect_frame (m : Message) :
    ((unknownEffect m s).1).sli = s.sli ∧
    ((unknownEffect m s).1).cch = s.cch ∧
    ((unknownEffect m s).1).tbm = s.tbm ∧
    ((unknownEffect m s).1).stg = s.stg ∧
    ((unknownEffect m s).1).swu = s.swu ∧
    ((unknownEffect m s).1).sce = s.sce ∧
    ((unknownEffect m s).1).dlu = s.dlu ∧
    ((unknownEffect m s).1).pmn = s.pmn ∧
    ((unknownEffect m s).1).tck = s.tck ∧
    ((unknownEffect m s).1).csq = s.csq ∧
    ((unknownEffect m s).1).tun = s.tun ∧
    ((unknownEffect m s).1).frame = s.frame ∧
    ((unknownEffect m s).1).pending = s.pending := by
  unfold unknownEffect
  simp

@[simp] theorem pingEffect_frame (m : Message) :
    ((pingEffect m s).1).sli = s.sli ∧
    ((pingEffect m s).1).cch = s.cch ∧
    ((pingEffect m s).1).tbm = s.tbm ∧
    ((pingEffect m s).1).stg = s.stg ∧
    ((pingEffect m s).1).swu = s.swu ∧
    ((pingEffect m s).1).sce = s.sce ∧
    ((pingEffect m s).1).dlu = s.dlu ∧
    ((pingEffect m s).1).pmn = s.pmn ∧
    ((pingEffect m s).1).tck = s.tck ∧
    ((pingEffect m s).1).csq = s.csq ∧
    ((pingEffect m s).1).tun = s.tun ∧
    ((pingEffect m s).1).frame = s.frame ∧
    ((pingEffect m s).1).pending = s.pending := by
  unfold pingEffect
  split <;> simp

@[simp] theorem State.clearSticky_frame :
    (s.clearSticky).sli = s.sli ∧
    (s.clearSticky).tbm = s.tbm ∧
    (s.clearSticky).stg = s.stg ∧
    (s.clearSticky).swu = s.swu ∧
    (s.clearSticky).dlu = s.dlu ∧
    (s.clearSticky).pmn = s.pmn ∧
    (s.clearSticky).tck = s.tck ∧
    (s.clearSticky).csq = s.csq ∧
    (s.clearSticky).tun = s.tun ∧
    (s.clearSticky).frame = s.frame ∧
    (s.clearSticky).pending = s.pending := by
  unfold State.clearSticky
  simp

@[simp] theorem statusEffect_frame (m : Message) :
    ((statusEffect m s).1).sli = s.sli ∧
    ((statusEffect m s).1).tbm = s.tbm ∧
    ((statusEffect m s).1).stg = s.stg ∧
    ((statusEffect m s).1).swu = s.swu ∧
    ((statusEffect m s).1).dlu = s.dlu ∧
    ((statusEffect m s).1).pmn = s.pmn ∧
    ((statusEffect m s).1).tck = s.tck ∧
    ((statusEffect m s).1).csq = s.csq ∧
    ((statusEffect m s).1).tun = s.tun ∧
    ((statusEffect m s).1).frame = s.frame ∧
    ((statusEffect m s).1).pending = s.pending := by
  unfold statusEffect
  (repeat' split) <;> simp

@[simp] theorem statusZeroEffect_frame (m : Message) :
    ((statusZeroEffect m s).1).sli = s.sli ∧
    ((statusZeroEffect m s).1).tbm = s.tbm ∧
    ((statusZeroEffect m s).1).stg = s.stg ∧
    ((statusZeroEffect m s).1).swu = s.swu ∧
    ((statusZeroEffect m s).1).dlu = s.dlu ∧
    ((statusZeroEffect m s).1).pmn = s.pmn ∧
    ((statusZeroEffect m s).1).tck = s.tck ∧
    ((statusZeroEffect m s).1).csq = s.csq ∧
    ((statusZeroEffect m s).1).tun = s.tun ∧
    ((statusZeroEffect m s).1).frame = s.frame ∧
    ((statusZeroEffect m s).1).pending = s.pending := by
  unfold statusZeroEffect
  split <;> simp

@[simp] theorem metersEffect_frame (m : Message) :
    ((metersEffect m s).1).sli = s.sli ∧
    ((metersEffect m s).1).cch = s.cch ∧
    ((metersEffect m s).1).tbm = s.tbm ∧
    ((metersEffect m s).1).stg = s.stg ∧
    ((metersEffect m s).1).swu = s.swu ∧
    ((metersEffect m s).1).dlu = s.dlu ∧
    ((metersEffect m s).1).pmn = s.pmn ∧
    ((metersEffect m s).1).tck = s.tck ∧
    ((metersEffect m s).1).csq = s.csq ∧
    ((metersEffect m s).1).tun = s.tun ∧
    ((metersEffect m s).1).frame = s.frame ∧
    ((metersEffect m s).1).pending = s.pending := by
  unfold metersEffect
  split <;> simp

@[simp] theorem slotmapEffect_frame (m : Message) :
    ((slotmapEffect m s).1).cch = s.cch ∧
    ((slotmapEffect m s).1).tbm = s.tbm ∧
    ((slotmapEffect m s).1).stg = s.stg ∧
    ((slotmapEffect m s).1).swu = s.swu ∧
    ((slotmapEffect m s).1).sce = s.sce ∧
    ((slotmapEffect m s).1).dlu = s.dlu ∧
    ((slotmapEffect m s).1).pmn = s.pmn ∧
    ((slotmapEffect m s).1).tck = s.tck ∧
    ((slotmapEffect m s).1).csq = s.csq ∧
    ((slotmapEffect m s).1).tun = s.tun ∧
    ((slotmapEffect m s).1).frame = s.frame ∧
    ((slotmapEffect m s).1).pending = s.pending := by
  unfold slotmapEffect
  (repeat' split) <;> simp

@[simp] theorem State.restartEngine_frame :
    (s.restartEngine).sli = s.sli ∧
    (s.restartEngine).cch = s.cch ∧
    (s.restartEngine).tbm = s.tbm ∧
    (s.restartEngine).frame = s.frame ∧
    (s.restartEngine).pending = s.pending := by
  unfold State.restartEngine
  simp

@[simp] theorem State.restartAll_frame :
    (s.restartAll).sli = s.sli ∧
    (s.restartAll).cch = s.cch ∧
    (s.restartAll).frame = s.frame ∧
    (s.restartAll).pending = s.pending := by
  unfold State.restartAll
  simp

@[simp] theorem restartEngineEffect_frame (m : Message) :
    ((restartEngineEffect m s).1).sli = s.sli ∧
    ((restartEngineEffect m s).1).tbm = s.tbm ∧
    ((restartEngineEffect m s).1).frame = s.frame ∧
    ((restartEngineEffect m s).1).pending = s.pending := by
  unfold restartEngineEffect
  (repeat' split) <;> simp

@[simp] theorem restartAllEffect_frame (m : Message) :
    ((restartAllEffect m s).1).sli = s.sli ∧
    ((restartAllEffect m s).1).frame = s.frame ∧
    ((restartAllEffect m s).1).pending = s.pending := by
  unfold restartAllEffect
  split <;> simp

@[simp] theorem State.load_frame (k : TableKind) (i o : Nat) (ws : List Word24) :
    ((s.load k i o ws).1).sli = s.sli ∧
    ((s.load k i o ws).1).sce = s.sce ∧
    ((s.load k i o ws).1).dlu = s.dlu ∧
    ((s.load k i o ws).1).pmn = s.pmn ∧
    ((s.load k i o ws).1).tck = s.tck ∧
    ((s.load k i o ws).1).csq = s.csq ∧
    ((s.load k i o ws).1).tun = s.tun ∧
    ((s.load k i o ws).1).frame = s.frame ∧
    ((s.load k i o ws).1).pending = s.pending ∧
    ((s.load k i o ws).1).swu.stack = s.swu.stack := by
  unfold State.load
  (repeat' split) <;> simp

@[simp] theorem loadEffect_frame (m : Message) :
    ((loadEffect m s).1).sli = s.sli ∧
    ((loadEffect m s).1).sce = s.sce ∧
    ((loadEffect m s).1).dlu = s.dlu ∧
    ((loadEffect m s).1).pmn = s.pmn ∧
    ((loadEffect m s).1).tck = s.tck ∧
    ((loadEffect m s).1).csq = s.csq ∧
    ((loadEffect m s).1).tun = s.tun ∧
    ((loadEffect m s).1).frame = s.frame ∧
    ((loadEffect m s).1).pending = s.pending ∧
    ((loadEffect m s).1).swu.stack = s.swu.stack := by
  unfold loadEffect
  (repeat' split) <;> simp

@[simp] theorem readEffect_frame (m : Message) :
    ((readEffect m s).1).sli = s.sli ∧
    ((readEffect m s).1).cch = s.cch ∧
    ((readEffect m s).1).tbm = s.tbm ∧
    ((readEffect m s).1).stg = s.stg ∧
    ((readEffect m s).1).swu = s.swu ∧
    ((readEffect m s).1).sce = s.sce ∧
    ((readEffect m s).1).dlu = s.dlu ∧
    ((readEffect m s).1).pmn = s.pmn ∧
    ((readEffect m s).1).tck = s.tck ∧
    ((readEffect m s).1).csq = s.csq ∧
    ((readEffect m s).1).tun = s.tun ∧
    ((readEffect m s).1).frame = s.frame ∧
    ((readEffect m s).1).pending = s.pending := by
  unfold readEffect
  (repeat' split) <;> simp

@[simp] theorem eraseEffect_frame (m : Message) :
    ((eraseEffect m s).1).sli = s.sli ∧
    ((eraseEffect m s).1).sce = s.sce ∧
    ((eraseEffect m s).1).dlu = s.dlu ∧
    ((eraseEffect m s).1).pmn = s.pmn ∧
    ((eraseEffect m s).1).tck = s.tck ∧
    ((eraseEffect m s).1).csq = s.csq ∧
    ((eraseEffect m s).1).tun = s.tun ∧
    ((eraseEffect m s).1).frame = s.frame ∧
    ((eraseEffect m s).1).pending = s.pending ∧
    ((eraseEffect m s).1).swu.stack = s.swu.stack := by
  unfold eraseEffect
  (repeat' split) <;> simp

@[simp] theorem commitEffect_frame (m : Message) :
    ((commitEffect m s).1).sli = s.sli ∧
    ((commitEffect m s).1).cch = s.cch ∧
    ((commitEffect m s).1).stg = s.stg ∧
    ((commitEffect m s).1).swu = s.swu ∧
    ((commitEffect m s).1).sce = s.sce ∧
    ((commitEffect m s).1).dlu = s.dlu ∧
    ((commitEffect m s).1).pmn = s.pmn ∧
    ((commitEffect m s).1).tck = s.tck ∧
    ((commitEffect m s).1).csq = s.csq ∧
    ((commitEffect m s).1).tun = s.tun ∧
    ((commitEffect m s).1).frame = s.frame ∧
    ((commitEffect m s).1).pending = s.pending := by
  unfold commitEffect
  try dsimp only
  (repeat' split) <;> simp

@[simp] theorem gateLimitEffect_frame (m : Message) :
    ((gateLimitEffect m s).1).sli = s.sli ∧
    ((gateLimitEffect m s).1).cch = s.cch ∧
    ((gateLimitEffect m s).1).stg = s.stg ∧
    ((gateLimitEffect m s).1).swu = s.swu ∧
    ((gateLimitEffect m s).1).sce = s.sce ∧
    ((gateLimitEffect m s).1).dlu = s.dlu ∧
    ((gateLimitEffect m s).1).pmn = s.pmn ∧
    ((gateLimitEffect m s).1).tck = s.tck ∧
    ((gateLimitEffect m s).1).csq = s.csq ∧
    ((gateLimitEffect m s).1).tun = s.tun ∧
    ((gateLimitEffect m s).1).frame = s.frame ∧
    ((gateLimitEffect m s).1).pending = s.pending := by
  unfold gateLimitEffect
  (repeat' split) <;> simp

@[simp] theorem State.storeImage_frame (r : SceneRecord) :
    (s.storeImage r).sli = s.sli ∧
    (s.storeImage r).cch = s.cch ∧
    (s.storeImage r).tbm = s.tbm ∧
    (s.storeImage r).swu = s.swu ∧
    (s.storeImage r).sce = s.sce ∧
    (s.storeImage r).dlu = s.dlu ∧
    (s.storeImage r).pmn = s.pmn ∧
    (s.storeImage r).tck = s.tck ∧
    (s.storeImage r).csq = s.csq ∧
    (s.storeImage r).tun = s.tun ∧
    (s.storeImage r).frame = s.frame ∧
    (s.storeImage r).pending = s.pending := by
  unfold State.storeImage
  split <;> simp

@[simp] theorem State.store_frame (n : Nat) (c : Copy) :
    ((s.store n c).1).sli = s.sli ∧
    ((s.store n c).1).dlu = s.dlu ∧
    ((s.store n c).1).pmn = s.pmn ∧
    ((s.store n c).1).tck = s.tck ∧
    ((s.store n c).1).csq = s.csq ∧
    ((s.store n c).1).tun = s.tun ∧
    ((s.store n c).1).frame = s.frame ∧
    ((s.store n c).1).pending = s.pending ∧
    ((s.store n c).1).swu.stack = s.swu.stack := by
  unfold State.store
  (repeat' split) <;> simp

@[simp] theorem storeEffect_frame (m : Message) :
    ((storeEffect m s).1).sli = s.sli ∧
    ((storeEffect m s).1).dlu = s.dlu ∧
    ((storeEffect m s).1).pmn = s.pmn ∧
    ((storeEffect m s).1).tck = s.tck ∧
    ((storeEffect m s).1).csq = s.csq ∧
    ((storeEffect m s).1).tun = s.tun ∧
    ((storeEffect m s).1).frame = s.frame ∧
    ((storeEffect m s).1).pending = s.pending ∧
    ((storeEffect m s).1).swu.stack = s.swu.stack := by
  unfold storeEffect
  (repeat' split) <;> simp

@[simp] theorem armEffect_frame (m : Message) :
    ((armEffect m s).1).sli = s.sli ∧
    ((armEffect m s).1).cch = s.cch ∧
    ((armEffect m s).1).tbm = s.tbm ∧
    ((armEffect m s).1).swu = s.swu ∧
    ((armEffect m s).1).sce = s.sce ∧
    ((armEffect m s).1).dlu = s.dlu ∧
    ((armEffect m s).1).pmn = s.pmn ∧
    ((armEffect m s).1).tck = s.tck ∧
    ((armEffect m s).1).csq = s.csq ∧
    ((armEffect m s).1).tun = s.tun ∧
    ((armEffect m s).1).frame = s.frame ∧
    ((armEffect m s).1).pending = s.pending := by
  unfold armEffect
  split <;> simp

@[simp] theorem State.disarm_frame (i : SlotNo) :
    ((s.disarm i).1).sli = s.sli ∧
    ((s.disarm i).1).tbm = s.tbm ∧
    ((s.disarm i).1).sce = s.sce ∧
    ((s.disarm i).1).dlu = s.dlu ∧
    ((s.disarm i).1).pmn = s.pmn ∧
    ((s.disarm i).1).tck = s.tck ∧
    ((s.disarm i).1).csq = s.csq ∧
    ((s.disarm i).1).tun = s.tun ∧
    ((s.disarm i).1).frame = s.frame ∧
    ((s.disarm i).1).pending = s.pending ∧
    ((s.disarm i).1).swu.stack = s.swu.stack := by
  unfold State.disarm
  try dsimp only
  (repeat' split) <;> simp

@[simp] theorem disarmEffect_frame (m : Message) :
    ((disarmEffect m s).1).sli = s.sli ∧
    ((disarmEffect m s).1).tbm = s.tbm ∧
    ((disarmEffect m s).1).sce = s.sce ∧
    ((disarmEffect m s).1).dlu = s.dlu ∧
    ((disarmEffect m s).1).pmn = s.pmn ∧
    ((disarmEffect m s).1).tck = s.tck ∧
    ((disarmEffect m s).1).csq = s.csq ∧
    ((disarmEffect m s).1).tun = s.tun ∧
    ((disarmEffect m s).1).frame = s.frame ∧
    ((disarmEffect m s).1).pending = s.pending ∧
    ((disarmEffect m s).1).swu.stack = s.swu.stack := by
  unfold disarmEffect
  (repeat' split) <;> simp

@[simp] theorem switchSceneEffect_frame (m : Message) :
    ((switchSceneEffect m s).1).sli = s.sli ∧
    ((switchSceneEffect m s).1).tbm = s.tbm ∧
    ((switchSceneEffect m s).1).sce = s.sce ∧
    ((switchSceneEffect m s).1).dlu = s.dlu ∧
    ((switchSceneEffect m s).1).pmn = s.pmn ∧
    ((switchSceneEffect m s).1).tck = s.tck ∧
    ((switchSceneEffect m s).1).csq = s.csq ∧
    ((switchSceneEffect m s).1).tun = s.tun ∧
    ((switchSceneEffect m s).1).frame = s.frame ∧
    ((switchSceneEffect m s).1).pending = s.pending := by
  unfold switchSceneEffect
  (repeat' split) <;> simp

@[simp] theorem switchGateEffect_frame (m : Message) :
    ((switchGateEffect m s).1).sli = s.sli ∧
    ((switchGateEffect m s).1).pmn = s.pmn ∧
    ((switchGateEffect m s).1).frame = s.frame ∧
    ((switchGateEffect m s).1).pending = s.pending := by
  unfold switchGateEffect
  (repeat' split) <;> simp

@[simp] theorem returnEffect_frame (m : Message) :
    ((returnEffect m s).1).sli = s.sli ∧
    ((returnEffect m s).1).tbm = s.tbm ∧
    ((returnEffect m s).1).sce = s.sce ∧
    ((returnEffect m s).1).dlu = s.dlu ∧
    ((returnEffect m s).1).pmn = s.pmn ∧
    ((returnEffect m s).1).tck = s.tck ∧
    ((returnEffect m s).1).csq = s.csq ∧
    ((returnEffect m s).1).frame = s.frame ∧
    ((returnEffect m s).1).pending = s.pending := by
  unfold returnEffect
  split <;> simp

@[simp] theorem State.setParam_frame (i j : Nat) (w : Word24) :
    (s.setParam i j w).sli = s.sli ∧
    (s.setParam i j w).cch = s.cch ∧
    (s.setParam i j w).tbm = s.tbm ∧
    (s.setParam i j w).stg = s.stg ∧
    (s.setParam i j w).swu = s.swu ∧
    (s.setParam i j w).dlu = s.dlu ∧
    (s.setParam i j w).pmn = s.pmn ∧
    (s.setParam i j w).tck = s.tck ∧
    (s.setParam i j w).csq = s.csq ∧
    (s.setParam i j w).tun = s.tun ∧
    (s.setParam i j w).frame = s.frame ∧
    (s.setParam i j w).pending = s.pending := by
  unfold State.setParam
  simp

@[simp] theorem setParamEffect_frame (m : Message) :
    ((setParamEffect m s).1).sli = s.sli ∧
    ((setParamEffect m s).1).cch = s.cch ∧
    ((setParamEffect m s).1).tbm = s.tbm ∧
    ((setParamEffect m s).1).stg = s.stg ∧
    ((setParamEffect m s).1).swu = s.swu ∧
    ((setParamEffect m s).1).dlu = s.dlu ∧
    ((setParamEffect m s).1).pmn = s.pmn ∧
    ((setParamEffect m s).1).tck = s.tck ∧
    ((setParamEffect m s).1).csq = s.csq ∧
    ((setParamEffect m s).1).tun = s.tun ∧
    ((setParamEffect m s).1).frame = s.frame ∧
    ((setParamEffect m s).1).pending = s.pending := by
  unfold setParamEffect
  (repeat' split) <;> simp

@[simp] theorem toggleStageEffect_frame (m : Message) :
    ((toggleStageEffect m s).1).sli = s.sli ∧
    ((toggleStageEffect m s).1).cch = s.cch ∧
    ((toggleStageEffect m s).1).tbm = s.tbm ∧
    ((toggleStageEffect m s).1).stg = s.stg ∧
    ((toggleStageEffect m s).1).swu = s.swu ∧
    ((toggleStageEffect m s).1).dlu = s.dlu ∧
    ((toggleStageEffect m s).1).pmn = s.pmn ∧
    ((toggleStageEffect m s).1).tck = s.tck ∧
    ((toggleStageEffect m s).1).csq = s.csq ∧
    ((toggleStageEffect m s).1).tun = s.tun ∧
    ((toggleStageEffect m s).1).frame = s.frame ∧
    ((toggleStageEffect m s).1).pending = s.pending := by
  unfold toggleStageEffect
  split <;> simp

@[simp] theorem tailCfgEffect_frame (m : Message) :
    ((tailCfgEffect m s).1).sli = s.sli ∧
    ((tailCfgEffect m s).1).cch = s.cch ∧
    ((tailCfgEffect m s).1).tbm = s.tbm ∧
    ((tailCfgEffect m s).1).stg = s.stg ∧
    ((tailCfgEffect m s).1).swu = s.swu ∧
    ((tailCfgEffect m s).1).sce = s.sce ∧
    ((tailCfgEffect m s).1).pmn = s.pmn ∧
    ((tailCfgEffect m s).1).tck = s.tck ∧
    ((tailCfgEffect m s).1).csq = s.csq ∧
    ((tailCfgEffect m s).1).tun = s.tun ∧
    ((tailCfgEffect m s).1).frame = s.frame ∧
    ((tailCfgEffect m s).1).pending = s.pending := by
  unfold tailCfgEffect
  split <;> simp

@[simp] theorem tempoEffect_frame (m : Message) :
    ((tempoEffect m s).1).sli = s.sli ∧
    ((tempoEffect m s).1).cch = s.cch ∧
    ((tempoEffect m s).1).tbm = s.tbm ∧
    ((tempoEffect m s).1).stg = s.stg ∧
    ((tempoEffect m s).1).sce = s.sce ∧
    ((tempoEffect m s).1).pmn = s.pmn ∧
    ((tempoEffect m s).1).tun = s.tun ∧
    ((tempoEffect m s).1).frame = s.frame ∧
    ((tempoEffect m s).1).pending = s.pending ∧
    ((tempoEffect m s).1).swu.stack = s.swu.stack := by
  unfold tempoEffect
  split <;> simp

@[simp] theorem meterEffect_frame (m : Message) :
    ((meterEffect m s).1).sli = s.sli ∧
    ((meterEffect m s).1).cch = s.cch ∧
    ((meterEffect m s).1).tbm = s.tbm ∧
    ((meterEffect m s).1).stg = s.stg ∧
    ((meterEffect m s).1).swu = s.swu ∧
    ((meterEffect m s).1).sce = s.sce ∧
    ((meterEffect m s).1).dlu = s.dlu ∧
    ((meterEffect m s).1).pmn = s.pmn ∧
    ((meterEffect m s).1).csq = s.csq ∧
    ((meterEffect m s).1).tun = s.tun ∧
    ((meterEffect m s).1).frame = s.frame ∧
    ((meterEffect m s).1).pending = s.pending := by
  unfold meterEffect
  (repeat' split) <;> simp

@[simp] theorem tapEffect_frame (m : Message) :
    ((tapEffect m s).1).sli = s.sli ∧
    ((tapEffect m s).1).tbm = s.tbm ∧
    ((tapEffect m s).1).stg = s.stg ∧
    ((tapEffect m s).1).sce = s.sce ∧
    ((tapEffect m s).1).pmn = s.pmn ∧
    ((tapEffect m s).1).tun = s.tun ∧
    ((tapEffect m s).1).frame = s.frame ∧
    ((tapEffect m s).1).pending = s.pending ∧
    ((tapEffect m s).1).swu.stack = s.swu.stack := by
  unfold tapEffect
  split <;> simp

@[simp] theorem clickEffect_frame (m : Message) :
    ((clickEffect m s).1).sli = s.sli ∧
    ((clickEffect m s).1).cch = s.cch ∧
    ((clickEffect m s).1).tbm = s.tbm ∧
    ((clickEffect m s).1).stg = s.stg ∧
    ((clickEffect m s).1).swu = s.swu ∧
    ((clickEffect m s).1).sce = s.sce ∧
    ((clickEffect m s).1).dlu = s.dlu ∧
    ((clickEffect m s).1).pmn = s.pmn ∧
    ((clickEffect m s).1).csq = s.csq ∧
    ((clickEffect m s).1).tun = s.tun ∧
    ((clickEffect m s).1).frame = s.frame ∧
    ((clickEffect m s).1).pending = s.pending := by
  unfold clickEffect
  (repeat' split) <;> simp

@[simp] theorem State.cueStartMessage_frame (a b : Nat) (t : Byte) :
    ((s.cueStartMessage a b t).1).sli = s.sli ∧
    ((s.cueStartMessage a b t).1).swu = s.swu ∧
    ((s.cueStartMessage a b t).1).sce = s.sce ∧
    ((s.cueStartMessage a b t).1).dlu = s.dlu ∧
    ((s.cueStartMessage a b t).1).pmn = s.pmn ∧
    ((s.cueStartMessage a b t).1).tck = s.tck ∧
    ((s.cueStartMessage a b t).1).tun = s.tun ∧
    ((s.cueStartMessage a b t).1).frame = s.frame ∧
    ((s.cueStartMessage a b t).1).pending = s.pending := by
  unfold State.cueStartMessage
  (repeat' split) <;> simp

@[simp] theorem cueStartEffect_frame (m : Message) :
    ((cueStartEffect m s).1).sli = s.sli ∧
    ((cueStartEffect m s).1).swu = s.swu ∧
    ((cueStartEffect m s).1).sce = s.sce ∧
    ((cueStartEffect m s).1).dlu = s.dlu ∧
    ((cueStartEffect m s).1).pmn = s.pmn ∧
    ((cueStartEffect m s).1).tck = s.tck ∧
    ((cueStartEffect m s).1).tun = s.tun ∧
    ((cueStartEffect m s).1).frame = s.frame ∧
    ((cueStartEffect m s).1).pending = s.pending := by
  unfold cueStartEffect
  split <;> simp

@[simp] theorem cueOpEffect_frame (o : CueOp) (m : Message) :
    ((cueOpEffect o m s).1).sli = s.sli ∧
    ((cueOpEffect o m s).1).swu = s.swu ∧
    ((cueOpEffect o m s).1).sce = s.sce ∧
    ((cueOpEffect o m s).1).dlu = s.dlu ∧
    ((cueOpEffect o m s).1).pmn = s.pmn ∧
    ((cueOpEffect o m s).1).tck = s.tck ∧
    ((cueOpEffect o m s).1).tun = s.tun ∧
    ((cueOpEffect o m s).1).frame = s.frame ∧
    ((cueOpEffect o m s).1).pending = s.pending := by
  unfold cueOpEffect
  split <;> simp

@[simp] theorem advanceEffect_frame (m : Message) :
    ((advanceEffect m s).1).sli = s.sli ∧
    ((advanceEffect m s).1).swu = s.swu ∧
    ((advanceEffect m s).1).sce = s.sce ∧
    ((advanceEffect m s).1).dlu = s.dlu ∧
    ((advanceEffect m s).1).pmn = s.pmn ∧
    ((advanceEffect m s).1).tck = s.tck ∧
    ((advanceEffect m s).1).tun = s.tun ∧
    ((advanceEffect m s).1).frame = s.frame ∧
    ((advanceEffect m s).1).pending = s.pending := by
  unfold advanceEffect
  (repeat' split) <;> simp

@[simp] theorem skipEffect_frame (m : Message) :
    ((skipEffect m s).1).sli = s.sli ∧
    ((skipEffect m s).1).swu = s.swu ∧
    ((skipEffect m s).1).sce = s.sce ∧
    ((skipEffect m s).1).dlu = s.dlu ∧
    ((skipEffect m s).1).pmn = s.pmn ∧
    ((skipEffect m s).1).tck = s.tck ∧
    ((skipEffect m s).1).tun = s.tun ∧
    ((skipEffect m s).1).frame = s.frame ∧
    ((skipEffect m s).1).pending = s.pending := by
  unfold skipEffect
  simp

@[simp] theorem vampEffect_frame (m : Message) :
    ((vampEffect m s).1).sli = s.sli ∧
    ((vampEffect m s).1).swu = s.swu ∧
    ((vampEffect m s).1).sce = s.sce ∧
    ((vampEffect m s).1).dlu = s.dlu ∧
    ((vampEffect m s).1).pmn = s.pmn ∧
    ((vampEffect m s).1).tck = s.tck ∧
    ((vampEffect m s).1).tun = s.tun ∧
    ((vampEffect m s).1).frame = s.frame ∧
    ((vampEffect m s).1).pending = s.pending := by
  unfold vampEffect
  simp

@[simp] theorem holdEffect_frame (m : Message) :
    ((holdEffect m s).1).sli = s.sli ∧
    ((holdEffect m s).1).swu = s.swu ∧
    ((holdEffect m s).1).sce = s.sce ∧
    ((holdEffect m s).1).dlu = s.dlu ∧
    ((holdEffect m s).1).pmn = s.pmn ∧
    ((holdEffect m s).1).tck = s.tck ∧
    ((holdEffect m s).1).tun = s.tun ∧
    ((holdEffect m s).1).frame = s.frame ∧
    ((holdEffect m s).1).pending = s.pending := by
  unfold holdEffect
  simp

@[simp] theorem resumeEffect_frame (m : Message) :
    ((resumeEffect m s).1).sli = s.sli ∧
    ((resumeEffect m s).1).swu = s.swu ∧
    ((resumeEffect m s).1).sce = s.sce ∧
    ((resumeEffect m s).1).dlu = s.dlu ∧
    ((resumeEffect m s).1).pmn = s.pmn ∧
    ((resumeEffect m s).1).tck = s.tck ∧
    ((resumeEffect m s).1).tun = s.tun ∧
    ((resumeEffect m s).1).frame = s.frame ∧
    ((resumeEffect m s).1).pending = s.pending := by
  unfold resumeEffect
  simp

@[simp] theorem stopEffect_frame (m : Message) :
    ((stopEffect m s).1).sli = s.sli ∧
    ((stopEffect m s).1).swu = s.swu ∧
    ((stopEffect m s).1).sce = s.sce ∧
    ((stopEffect m s).1).dlu = s.dlu ∧
    ((stopEffect m s).1).pmn = s.pmn ∧
    ((stopEffect m s).1).tck = s.tck ∧
    ((stopEffect m s).1).tun = s.tun ∧
    ((stopEffect m s).1).frame = s.frame ∧
    ((stopEffect m s).1).pending = s.pending := by
  unfold stopEffect
  simp

@[simp] theorem tunerModeEffect_frame (m : Message) :
    ((tunerModeEffect m s).1).sli = s.sli ∧
    ((tunerModeEffect m s).1).cch = s.cch ∧
    ((tunerModeEffect m s).1).tbm = s.tbm ∧
    ((tunerModeEffect m s).1).stg = s.stg ∧
    ((tunerModeEffect m s).1).swu = s.swu ∧
    ((tunerModeEffect m s).1).sce = s.sce ∧
    ((tunerModeEffect m s).1).dlu = s.dlu ∧
    ((tunerModeEffect m s).1).pmn = s.pmn ∧
    ((tunerModeEffect m s).1).tck = s.tck ∧
    ((tunerModeEffect m s).1).csq = s.csq ∧
    ((tunerModeEffect m s).1).frame = s.frame ∧
    ((tunerModeEffect m s).1).pending = s.pending := by
  unfold tunerModeEffect
  (repeat' split) <;> simp

@[simp] theorem tunerRefEffect_frame (m : Message) :
    ((tunerRefEffect m s).1).sli = s.sli ∧
    ((tunerRefEffect m s).1).cch = s.cch ∧
    ((tunerRefEffect m s).1).tbm = s.tbm ∧
    ((tunerRefEffect m s).1).stg = s.stg ∧
    ((tunerRefEffect m s).1).swu = s.swu ∧
    ((tunerRefEffect m s).1).sce = s.sce ∧
    ((tunerRefEffect m s).1).dlu = s.dlu ∧
    ((tunerRefEffect m s).1).pmn = s.pmn ∧
    ((tunerRefEffect m s).1).tck = s.tck ∧
    ((tunerRefEffect m s).1).csq = s.csq ∧
    ((tunerRefEffect m s).1).frame = s.frame ∧
    ((tunerRefEffect m s).1).pending = s.pending := by
  unfold tunerRefEffect
  split <;> simp

@[simp] theorem tunerSourceEffect_frame (m : Message) :
    ((tunerSourceEffect m s).1).sli = s.sli ∧
    ((tunerSourceEffect m s).1).cch = s.cch ∧
    ((tunerSourceEffect m s).1).tbm = s.tbm ∧
    ((tunerSourceEffect m s).1).stg = s.stg ∧
    ((tunerSourceEffect m s).1).swu = s.swu ∧
    ((tunerSourceEffect m s).1).sce = s.sce ∧
    ((tunerSourceEffect m s).1).dlu = s.dlu ∧
    ((tunerSourceEffect m s).1).pmn = s.pmn ∧
    ((tunerSourceEffect m s).1).tck = s.tck ∧
    ((tunerSourceEffect m s).1).csq = s.csq ∧
    ((tunerSourceEffect m s).1).frame = s.frame ∧
    ((tunerSourceEffect m s).1).pending = s.pending := by
  unfold tunerSourceEffect
  (repeat' split) <;> simp

@[simp] theorem pedalCfgEffect_frame (m : Message) :
    ((pedalCfgEffect m s).1).sli = s.sli ∧
    ((pedalCfgEffect m s).1).cch = s.cch ∧
    ((pedalCfgEffect m s).1).tbm = s.tbm ∧
    ((pedalCfgEffect m s).1).stg = s.stg ∧
    ((pedalCfgEffect m s).1).swu = s.swu ∧
    ((pedalCfgEffect m s).1).sce = s.sce ∧
    ((pedalCfgEffect m s).1).dlu = s.dlu ∧
    ((pedalCfgEffect m s).1).tck = s.tck ∧
    ((pedalCfgEffect m s).1).csq = s.csq ∧
    ((pedalCfgEffect m s).1).tun = s.tun ∧
    ((pedalCfgEffect m s).1).frame = s.frame ∧
    ((pedalCfgEffect m s).1).pending = s.pending := by
  unfold pedalCfgEffect
  (repeat' split) <;> simp

@[simp] theorem MessageRow.effect_frame (r : MessageRow) (m : Message) :
    ((r.effect m s).1).frame = s.frame ∧
    ((r.effect m s).1).pending = s.pending := by
  cases r <;> simp [MessageRow.effect]

@[simp] theorem State.removeHead_frame (r : List Message) :
    (s.removeHead r).sli = s.sli ∧
    (s.removeHead r).tbm = s.tbm ∧
    (s.removeHead r).stg = s.stg ∧
    (s.removeHead r).swu = s.swu ∧
    (s.removeHead r).sce = s.sce ∧
    (s.removeHead r).dlu = s.dlu ∧
    (s.removeHead r).pmn = s.pmn ∧
    (s.removeHead r).tck = s.tck ∧
    (s.removeHead r).csq = s.csq ∧
    (s.removeHead r).tun = s.tun ∧
    (s.removeHead r).pending = s.pending := by
  unfold State.removeHead
  simp

@[simp] theorem State.relockEngine_frame :
    (s.relockEngine).sli = s.sli ∧
    (s.relockEngine).cch = s.cch ∧
    (s.relockEngine).tbm = s.tbm ∧
    (s.relockEngine).stg = s.stg ∧
    (s.relockEngine).swu = s.swu ∧
    (s.relockEngine).dlu = s.dlu ∧
    (s.relockEngine).pmn = s.pmn ∧
    (s.relockEngine).tck = s.tck ∧
    (s.relockEngine).csq = s.csq ∧
    (s.relockEngine).tun = s.tun ∧
    (s.relockEngine).frame = s.frame ∧
    (s.relockEngine).pending = s.pending := by
  unfold State.relockEngine
  simp

@[simp] theorem State.lock_frame :
    (s.lock).tbm = s.tbm ∧
    (s.lock).stg = s.stg ∧
    (s.lock).swu = s.swu ∧
    (s.lock).pmn = s.pmn ∧
    (s.lock).tck = s.tck ∧
    (s.lock).csq = s.csq ∧
    (s.lock).tun = s.tun ∧
    (s.lock).frame = s.frame ∧
    (s.lock).pending = s.pending := by
  unfold State.lock
  simp

@[simp] theorem State.tunerLoss_frame :
    (s.tunerLoss).sli = s.sli ∧
    (s.tunerLoss).cch = s.cch ∧
    (s.tunerLoss).tbm = s.tbm ∧
    (s.tunerLoss).stg = s.stg ∧
    (s.tunerLoss).swu = s.swu ∧
    (s.tunerLoss).sce = s.sce ∧
    (s.tunerLoss).dlu = s.dlu ∧
    (s.tunerLoss).pmn = s.pmn ∧
    (s.tunerLoss).tck = s.tck ∧
    (s.tunerLoss).csq = s.csq ∧
    (s.tunerLoss).frame = s.frame ∧
    (s.tunerLoss).pending = s.pending := by
  unfold State.tunerLoss
  split <;> simp

@[simp] theorem State.linkLoss_frame :
    (s.linkLoss).tbm = s.tbm ∧
    (s.linkLoss).csq = s.csq ∧
    (s.linkLoss).frame = s.frame ∧
    (s.linkLoss).pending = s.pending ∧
    (s.linkLoss).swu.stack = s.swu.stack := by
  unfold State.linkLoss
  simp

@[simp] theorem State.age_frame :
    (s.age).sli = s.sli ∧
    (s.age).cch = s.cch ∧
    (s.age).tbm = s.tbm ∧
    (s.age).dlu = s.dlu ∧
    (s.age).tck = s.tck ∧
    (s.age).tun = s.tun ∧
    (s.age).frame = s.frame ∧
    (s.age).pending = s.pending ∧
    (s.age).swu.stack = s.swu.stack := by
  unfold State.age
  simp

@[simp] theorem State.audio_frame (f : FrameIn) :
    (s.audio f).cch = s.cch ∧
    (s.audio f).tbm = s.tbm ∧
    (s.audio f).stg = s.stg ∧
    (s.audio f).swu = s.swu ∧
    (s.audio f).pmn = s.pmn ∧
    (s.audio f).tck = s.tck ∧
    (s.audio f).csq = s.csq ∧
    (s.audio f).tun = s.tun ∧
    (s.audio f).frame = s.frame ∧
    (s.audio f).pending = s.pending := by
  unfold State.audio
  simp

@[simp] theorem State.clockFrame_frame :
    (s.clockFrame).cch = s.cch ∧
    (s.clockFrame).tbm = s.tbm ∧
    (s.clockFrame).stg = s.stg ∧
    (s.clockFrame).swu = s.swu ∧
    (s.clockFrame).sce = s.sce ∧
    (s.clockFrame).dlu = s.dlu ∧
    (s.clockFrame).pmn = s.pmn ∧
    (s.clockFrame).csq = s.csq ∧
    (s.clockFrame).tun = s.tun ∧
    (s.clockFrame).pending = s.pending := by
  unfold State.clockFrame
  try dsimp only
  (repeat' split) <;> simp

@[simp] theorem State.measureSource_frame (a b : Int) :
    (s.measureSource a b).sli = s.sli ∧
    (s.measureSource a b).cch = s.cch ∧
    (s.measureSource a b).tbm = s.tbm ∧
    (s.measureSource a b).stg = s.stg ∧
    (s.measureSource a b).swu = s.swu ∧
    (s.measureSource a b).sce = s.sce ∧
    (s.measureSource a b).dlu = s.dlu ∧
    (s.measureSource a b).pmn = s.pmn ∧
    (s.measureSource a b).tck = s.tck ∧
    (s.measureSource a b).csq = s.csq ∧
    (s.measureSource a b).frame = s.frame ∧
    (s.measureSource a b).pending = s.pending := by
  unfold State.measureSource
  simp

@[simp] theorem State.takeControl_frame (w : Word32) :
    (s.takeControl w).sli = s.sli ∧
    (s.takeControl w).tbm = s.tbm ∧
    (s.takeControl w).stg = s.stg ∧
    (s.takeControl w).swu = s.swu ∧
    (s.takeControl w).sce = s.sce ∧
    (s.takeControl w).dlu = s.dlu ∧
    (s.takeControl w).pmn = s.pmn ∧
    (s.takeControl w).tck = s.tck ∧
    (s.takeControl w).csq = s.csq ∧
    (s.takeControl w).tun = s.tun ∧
    (s.takeControl w).frame = s.frame ∧
    (s.takeControl w).pending = s.pending := by
  unfold State.takeControl
  simp

@[simp] theorem State.openEnd_frame (o : FrameOrder) (c : Word32) (a b : Int) :
    (s.openEnd o c a b).sli = s.sli ∧
    (s.openEnd o c a b).cch = s.cch ∧
    (s.openEnd o c a b).tbm = s.tbm ∧
    (s.openEnd o c a b).stg = s.stg ∧
    (s.openEnd o c a b).swu = s.swu ∧
    (s.openEnd o c a b).sce = s.sce ∧
    (s.openEnd o c a b).dlu = s.dlu ∧
    (s.openEnd o c a b).pmn = s.pmn ∧
    (s.openEnd o c a b).tck = s.tck ∧
    (s.openEnd o c a b).csq = s.csq ∧
    (s.openEnd o c a b).tun = s.tun ∧
    (s.openEnd o c a b).pending = s.pending := by
  unfold State.openEnd
  simp

@[simp] theorem State.drainExpressions_frame :
    (s.drainExpressions).sli = s.sli ∧
    (s.drainExpressions).tbm = s.tbm ∧
    (s.drainExpressions).stg = s.stg ∧
    (s.drainExpressions).swu = s.swu ∧
    (s.drainExpressions).dlu = s.dlu ∧
    (s.drainExpressions).tck = s.tck ∧
    (s.drainExpressions).csq = s.csq ∧
    (s.drainExpressions).tun = s.tun ∧
    (s.drainExpressions).frame = s.frame ∧
    (s.drainExpressions).pending = s.pending := by
  unfold State.drainExpressions
  split
  · simp
  · exact takeExpressions_frame s s.pmn.events

/-- Where a footswitch event or nothing comes next, no expression change is carried out. -/
theorem State.drainExpressions_of_none (h : ∀ b v es, s.pmn.events ≠ .expression b v :: es) :
    s.drainExpressions = s := by
  unfold State.drainExpressions
  split
  · rfl
  · cases he : s.pmn.events with
    | nil => rfl
    | cons e es => cases e with
      | press f => rfl
      | release f => rfl
      | expression b v => exact absurd he (h b v es)

@[simp] theorem State.deliverFrame_frame (o : FrameOrder) (r : Received) :
    (s.deliverFrame o r).tbm = s.tbm ∧
    (s.deliverFrame o r).pending = s.pending ∧
    (s.deliverFrame o r).swu.stack = s.swu.stack := by
  unfold State.deliverFrame
  (repeat' split) <;> simp

@[simp] theorem State.deliverDue_frame (o : FrameOrder) :
    (s.deliverDue o).tbm = s.tbm ∧
    (s.deliverDue o).pending = s.pending ∧
    (s.deliverDue o).swu.stack = s.swu.stack := by
  unfold State.deliverDue
  split <;> simp

@[simp] theorem State.sendReply_frame (n : Nat) :
    (s.sendReply n).tbm = s.tbm ∧
    (s.sendReply n).stg = s.stg ∧
    (s.sendReply n).swu = s.swu ∧
    (s.sendReply n).sce = s.sce ∧
    (s.sendReply n).dlu = s.dlu ∧
    (s.sendReply n).pmn = s.pmn ∧
    (s.sendReply n).tck = s.tck ∧
    (s.sendReply n).csq = s.csq ∧
    (s.sendReply n).tun = s.tun ∧
    (s.sendReply n).frame = s.frame ∧
    (s.sendReply n).pending = s.pending := by
  unfold State.sendReply
  split <;> simp

/-- An interval that ends moves the two FOH peaks and nothing else of the engine (R91). -/
@[simp] theorem State.followPeaks_frame (n : Nat) :
    (s.followPeaks n).sli = s.sli ∧
    (s.followPeaks n).cch = s.cch ∧
    (s.followPeaks n).tbm = s.tbm ∧
    (s.followPeaks n).stg = s.stg ∧
    (s.followPeaks n).swu = s.swu ∧
    (s.followPeaks n).sce.live = s.sce.live ∧ (s.followPeaks n).sce.fading = s.sce.fading ∧
    (s.followPeaks n).sce.mute = s.sce.mute ∧ (s.followPeaks n).sce.fade = s.sce.fade ∧
    (s.followPeaks n).sce.mixClips = s.sce.mixClips ∧ (s.followPeaks n).sce.clip = s.sce.clip ∧
    (s.followPeaks n).dlu = s.dlu ∧
    (s.followPeaks n).pmn = s.pmn ∧
    (s.followPeaks n).tck = s.tck ∧
    (s.followPeaks n).csq = s.csq ∧
    (s.followPeaks n).tun = s.tun ∧
    (s.followPeaks n).frame = s.frame ∧
    (s.followPeaks n).pending = s.pending := by
  unfold State.followPeaks
  split <;> simp

@[simp] theorem State.intervalEnds_frame (iv : SyncInterval) :
    (s.intervalEnds iv).tbm = s.tbm ∧
    (s.intervalEnds iv).stg = s.stg ∧
    (s.intervalEnds iv).swu = s.swu ∧
    (s.intervalEnds iv).sce = (s.followPeaks (fullSlots s.sli.markless iv)).sce ∧
    (s.intervalEnds iv).dlu = s.dlu ∧
    (s.intervalEnds iv).pmn = s.pmn ∧
    (s.intervalEnds iv).tck = s.tck ∧
    (s.intervalEnds iv).csq = s.csq ∧
    (s.intervalEnds iv).tun = s.tun ∧
    (s.intervalEnds iv).frame = s.frame ∧
    (s.intervalEnds iv).pending = s.pending := by
  unfold State.intervalEnds
  simp

@[simp] theorem State.paceTuner_frame :
    (s.paceTuner).sli = s.sli ∧
    (s.paceTuner).cch = s.cch ∧
    (s.paceTuner).tbm = s.tbm ∧
    (s.paceTuner).stg = s.stg ∧
    (s.paceTuner).swu = s.swu ∧
    (s.paceTuner).sce = s.sce ∧
    (s.paceTuner).dlu = s.dlu ∧
    (s.paceTuner).pmn = s.pmn ∧
    (s.paceTuner).tck = s.tck ∧
    (s.paceTuner).csq = s.csq ∧
    (s.paceTuner).frame = s.frame ∧
    (s.paceTuner).pending = s.pending := by
  unfold State.paceTuner
  split <;> simp

@[simp] theorem State.blockBoundary_frame :
    (s.blockBoundary).sli = s.sli ∧
    (s.blockBoundary).cch = s.cch ∧
    (s.blockBoundary).tbm = s.tbm ∧
    (s.blockBoundary).swu = s.swu ∧
    (s.blockBoundary).tck = s.tck ∧
    (s.blockBoundary).csq = s.csq ∧
    (s.blockBoundary).pending = s.pending := by
  unfold State.blockBoundary
  simp

@[simp] theorem State.expireTail_frame (l : LineNo) :
    (s.expireTail l).sli = s.sli ∧
    (s.expireTail l).cch = s.cch ∧
    (s.expireTail l).tbm = s.tbm ∧
    (s.expireTail l).stg = s.stg ∧
    (s.expireTail l).swu = s.swu ∧
    (s.expireTail l).sce = s.sce ∧
    (s.expireTail l).pmn = s.pmn ∧
    (s.expireTail l).tck = s.tck ∧
    (s.expireTail l).csq = s.csq ∧
    (s.expireTail l).tun = s.tun ∧
    (s.expireTail l).frame = s.frame ∧
    (s.expireTail l).pending = s.pending := by
  unfold State.expireTail
  simp

@[simp] theorem State.startTest_frame :
    (s.startTest).sli = s.sli ∧
    (s.startTest).tbm = s.tbm ∧
    (s.startTest).pmn = s.pmn ∧
    (s.startTest).tck = s.tck ∧
    (s.startTest).csq = s.csq ∧
    (s.startTest).pending = s.pending ∧
    (s.startTest).swu.stack = s.swu.stack := by
  unfold State.startTest
  try dsimp only
  (repeat' split) <;> simp

@[simp] theorem State.loaderTake_frame (i : SlotNo) :
    (s.loaderTake i).sli = s.sli ∧
    (s.loaderTake i).tbm = s.tbm ∧
    (s.loaderTake i).sce = s.sce ∧
    (s.loaderTake i).dlu = s.dlu ∧
    (s.loaderTake i).pmn = s.pmn ∧
    (s.loaderTake i).tck = s.tck ∧
    (s.loaderTake i).csq = s.csq ∧
    (s.loaderTake i).tun = s.tun ∧
    (s.loaderTake i).frame = s.frame ∧
    (s.loaderTake i).pending = s.pending ∧
    (s.loaderTake i).swu.stack = s.swu.stack := by
  unfold State.loaderTake
  try dsimp only
  (repeat' split) <;> simp

@[simp] theorem State.pacingExpiry_frame :
    (s.pacingExpiry).sli = s.sli ∧
    (s.pacingExpiry).tbm = s.tbm ∧
    (s.pacingExpiry).stg = s.stg ∧
    (s.pacingExpiry).swu = s.swu ∧
    (s.pacingExpiry).sce = s.sce ∧
    (s.pacingExpiry).dlu = s.dlu ∧
    (s.pacingExpiry).pmn = s.pmn ∧
    (s.pacingExpiry).tck = s.tck ∧
    (s.pacingExpiry).csq = s.csq ∧
    (s.pacingExpiry).frame = s.frame ∧
    (s.pacingExpiry).pending = s.pending := by
  unfold State.pacingExpiry
  try dsimp only
  (repeat' split) <;> simp

@[simp] theorem State.serveTimeout_frame :
    (s.serveTimeout).sli = s.sli ∧
    (s.serveTimeout).tbm = s.tbm ∧
    (s.serveTimeout).stg = s.stg ∧
    (s.serveTimeout).swu = s.swu ∧
    (s.serveTimeout).sce = s.sce ∧
    (s.serveTimeout).dlu = s.dlu ∧
    (s.serveTimeout).pmn = s.pmn ∧
    (s.serveTimeout).tck = s.tck ∧
    (s.serveTimeout).csq = s.csq ∧
    (s.serveTimeout).tun = s.tun ∧
    (s.serveTimeout).frame = s.frame ∧
    (s.serveTimeout).pending = s.pending := by
  unfold State.serveTimeout
  split <;> simp

@[simp] theorem State.serveFades_frame :
    (s.serveFades).sli = s.sli ∧
    (s.serveFades).cch = s.cch ∧
    (s.serveFades).tbm = s.tbm ∧
    (s.serveFades).stg = s.stg ∧
    (s.serveFades).swu = s.swu ∧
    (s.serveFades).sce = s.sce ∧
    (s.serveFades).pmn = s.pmn ∧
    (s.serveFades).tck = s.tck ∧
    (s.serveFades).csq = s.csq ∧
    (s.serveFades).tun = s.tun ∧
    (s.serveFades).frame = s.frame ∧
    (s.serveFades).pending = s.pending := by
  unfold State.serveFades
  simp

@[simp] theorem State.serveGates_frame :
    (s.serveGates).sli = s.sli ∧
    (s.serveGates).cch = s.cch ∧
    (s.serveGates).tbm = s.tbm ∧
    (s.serveGates).stg = s.stg ∧
    (s.serveGates).swu = s.swu ∧
    (s.serveGates).dlu = s.dlu ∧
    (s.serveGates).pmn = s.pmn ∧
    (s.serveGates).tck = s.tck ∧
    (s.serveGates).csq = s.csq ∧
    (s.serveGates).tun = s.tun ∧
    (s.serveGates).frame = s.frame ∧
    (s.serveGates).pending = s.pending := by
  unfold State.serveGates
  simp

@[simp] theorem State.serveBurst_frame :
    (s.serveBurst).sli = s.sli ∧
    (s.serveBurst).cch = s.cch ∧
    (s.serveBurst).tbm = s.tbm ∧
    (s.serveBurst).stg = s.stg ∧
    (s.serveBurst).swu = s.swu ∧
    (s.serveBurst).sce = s.sce ∧
    (s.serveBurst).dlu = s.dlu ∧
    (s.serveBurst).pmn = s.pmn ∧
    (s.serveBurst).csq = s.csq ∧
    (s.serveBurst).tun = s.tun ∧
    (s.serveBurst).frame = s.frame ∧
    (s.serveBurst).pending = s.pending := by
  unfold State.serveBurst
  simp

@[simp] theorem State.serveSilence_frame :
    (s.serveSilence).sli = s.sli ∧
    (s.serveSilence).cch = s.cch ∧
    (s.serveSilence).tbm = s.tbm ∧
    (s.serveSilence).stg = s.stg ∧
    (s.serveSilence).swu = s.swu ∧
    (s.serveSilence).sce = s.sce ∧
    (s.serveSilence).dlu = s.dlu ∧
    (s.serveSilence).pmn = s.pmn ∧
    (s.serveSilence).tck = s.tck ∧
    (s.serveSilence).csq = s.csq ∧
    (s.serveSilence).frame = s.frame ∧
    (s.serveSilence).pending = s.pending := by
  unfold State.serveSilence
  simp

@[simp] theorem CueDue.action_frame (d : CueDue) :
    (d.action s).sli = s.sli ∧
    (d.action s).sce = s.sce ∧
    (d.action s).pmn = s.pmn ∧
    (d.action s).tun = s.tun ∧
    (d.action s).frame = s.frame ∧
    (d.action s).pending = s.pending := by
  cases d <;> simp [CueDue.action]

@[simp] theorem State.takeCueDue_frame (d : CueDue) :
    (s.takeCueDue d.action).sli = s.sli ∧
    (s.takeCueDue d.action).sce = s.sce ∧
    (s.takeCueDue d.action).pmn = s.pmn ∧
    (s.takeCueDue d.action).tun = s.tun ∧
    (s.takeCueDue d.action).frame = s.frame ∧
    (s.takeCueDue d.action).pending = s.pending := by
  unfold State.takeCueDue
  simp

/-- Behind a cue event, expression changes that waited reach the engine and the pedal monitor. -/
@[simp] theorem State.finishCueDue_frame (d : CueDue) :
    (s.finishCueDue d.action).sli = s.sli ∧
    (s.finishCueDue d.action).tun = s.tun ∧
    (s.finishCueDue d.action).frame = s.frame ∧
    (s.finishCueDue d.action).pending = s.pending := by
  unfold State.finishCueDue
  simp

@[simp] theorem State.serveCue_frame :
    (s.serveCue).sli = s.sli ∧
    (s.serveCue).tun = s.tun ∧
    (s.serveCue).frame = s.frame ∧
    (s.serveCue).pending = s.pending := by
  unfold State.serveCue
  split <;> simp

@[simp] theorem State.serveLink_frame :
    (s.serveLink).tbm = s.tbm ∧
    (s.serveLink).pending = s.pending ∧
    (s.serveLink).swu.stack = s.swu.stack := by
  unfold State.serveLink
  (repeat' split) <;> simp

@[simp] theorem State.settle_frame :
    (s.settle).pending = s.pending := by
  unfold State.settle
  split <;> simp

@[simp] theorem State.takePedal_frame (e : PedalEvent) (r : List PedalEvent) :
    (s.takePedal e r).sli = s.sli ∧
    (s.takePedal e r).frame = s.frame ∧
    (s.takePedal e r).pending = s.pending := by
  unfold State.takePedal
  split <;> simp

@[simp] theorem State.closeControl_frame :
    (s.closeControl).pending = s.pending := by
  unfold State.closeControl
  split <;> simp

@[simp] theorem State.beat_frame :
    (s.beat).sli = s.sli ∧
    (s.beat).tbm = s.tbm ∧
    (s.beat).stg = s.stg ∧
    (s.beat).sce = s.sce ∧
    (s.beat).dlu = s.dlu ∧
    (s.beat).pmn = s.pmn ∧
    (s.beat).tun = s.tun ∧
    (s.beat).pending = s.pending ∧
    (s.beat).swu.stack = s.swu.stack := by
  unfold State.beat
  simp

@[simp] theorem State.closeBeat_frame :
    (s.closeBeat).pending = s.pending := by
  unfold State.closeBeat
  split <;> simp

@[simp] theorem State.closePreparation_frame :
    (s.closePreparation).sli = s.sli ∧
    (s.closePreparation).tbm = s.tbm ∧
    (s.closePreparation).swu = s.swu ∧
    (s.closePreparation).sce = s.sce ∧
    (s.closePreparation).dlu = s.dlu ∧
    (s.closePreparation).pmn = s.pmn ∧
    (s.closePreparation).tck = s.tck ∧
    (s.closePreparation).csq = s.csq ∧
    (s.closePreparation).tun = s.tun ∧
    (s.closePreparation).frame = s.frame ∧
    (s.closePreparation).pending = s.pending := by
  unfold State.closePreparation
  split <;> simp

@[simp] theorem State.closeCrossfade_frame :
    (s.closeCrossfade).sli = s.sli ∧
    (s.closeCrossfade).tbm = s.tbm ∧
    (s.closeCrossfade).pmn = s.pmn ∧
    (s.closeCrossfade).tck = s.tck ∧
    (s.closeCrossfade).csq = s.csq ∧
    (s.closeCrossfade).frame = s.frame ∧
    (s.closeCrossfade).pending = s.pending ∧
    (s.closeCrossfade).swu.stack = s.swu.stack := by
  unfold State.closeCrossfade
  (repeat' split) <;> simp

@[simp] theorem State.closeStart_frame :
    (s.closeStart).sli = s.sli ∧
    (s.closeStart).tbm = s.tbm ∧
    (s.closeStart).pmn = s.pmn ∧
    (s.closeStart).tck = s.tck ∧
    (s.closeStart).csq = s.csq ∧
    (s.closeStart).frame = s.frame ∧
    (s.closeStart).pending = s.pending ∧
    (s.closeStart).swu.stack = s.swu.stack := by
  unfold State.closeStart
  split <;> simp

@[simp] theorem State.closeList_frame :
    (s.closeList).pending = s.pending := by
  unfold State.closeList
  split <;> simp

@[simp] theorem State.closePacing_frame :
    (s.closePacing).sli = s.sli ∧
    (s.closePacing).tbm = s.tbm ∧
    (s.closePacing).stg = s.stg ∧
    (s.closePacing).swu = s.swu ∧
    (s.closePacing).sce = s.sce ∧
    (s.closePacing).dlu = s.dlu ∧
    (s.closePacing).pmn = s.pmn ∧
    (s.closePacing).tck = s.tck ∧
    (s.closePacing).csq = s.csq ∧
    (s.closePacing).frame = s.frame ∧
    (s.closePacing).pending = s.pending := by
  unfold State.closePacing
  split <;> simp

@[simp] theorem State.closeTails_frame :
    (s.closeTails).sli = s.sli ∧
    (s.closeTails).cch = s.cch ∧
    (s.closeTails).tbm = s.tbm ∧
    (s.closeTails).stg = s.stg ∧
    (s.closeTails).swu = s.swu ∧
    (s.closeTails).sce = s.sce ∧
    (s.closeTails).pmn = s.pmn ∧
    (s.closeTails).tck = s.tck ∧
    (s.closeTails).csq = s.csq ∧
    (s.closeTails).tun = s.tun ∧
    (s.closeTails).frame = s.frame ∧
    (s.closeTails).pending = s.pending := by
  simp only [State.closeTails, forEach, four, List.foldl]
  (repeat' split) <;> simp

@[simp] theorem State.closeMeasure_frame :
    (s.closeMeasure).pending = s.pending := by
  unfold State.closeMeasure
  split <;> simp

@[simp] theorem State.endFrame_frame :
    (s.endFrame).tbm = s.tbm ∧
    (s.endFrame).stg = s.stg ∧
    (s.endFrame).swu = s.swu ∧
    (s.endFrame).sce = s.sce ∧
    (s.endFrame).dlu = s.dlu ∧
    (s.endFrame).pmn = s.pmn ∧
    (s.endFrame).tck = s.tck ∧
    (s.endFrame).csq = s.csq ∧
    (s.endFrame).tun = s.tun ∧
    (s.endFrame).frame = s.frame ∧
    (s.endFrame).pending = s.pending := by
  unfold State.endFrame
  simp

@[simp] theorem State.serveStage_frame (c : CopyRole) (k : Fin 10) (d : Stage → Bool) (f : Stage → Stage) :
    (s.serveStage c k d f).sli = s.sli ∧
    (s.serveStage c k d f).cch = s.cch ∧
    (s.serveStage c k d f).tbm = s.tbm ∧
    (s.serveStage c k d f).stg = s.stg ∧
    (s.serveStage c k d f).swu = s.swu ∧
    (s.serveStage c k d f).dlu = s.dlu ∧
    (s.serveStage c k d f).pmn = s.pmn ∧
    (s.serveStage c k d f).tck = s.tck ∧
    (s.serveStage c k d f).csq = s.csq ∧
    (s.serveStage c k d f).tun = s.tun ∧
    (s.serveStage c k d f).frame = s.frame ∧
    (s.serveStage c k d f).pending = s.pending := by
  unfold State.serveStage
  split <;> simp

end Sys2Proof.Machine
end

