-- ==== Sys2Proof/Laws/Executor.lean ====
section
/-! SUPPORT. What the executor and the shared steps do, said once: a settled state is left as it is by
`settle`, a step of the chip acts unless RESETN is low, a message taken is answered, and reports are
queued in order. -/

namespace Sys2Proof.Machine

variable {s : State}

theorem State.settle_of_quiet (h : s.quiet = true) : s.settle = s := by simp [State.settle, h]

theorem act_awake (f : State → State) (h : s.sli.resetHeld = false) : act f s = .next (f s) := by
  simp [act, h]

theorem act_held (f : State → State) (h : s.sli.resetHeld = true) : act f s = .next s := by
  simp [act, h]

/-- A step of a settled chip. -/
theorem State.Settled.act_settle (h : s.Settled) (f : State → State) :
    act (fun s => f s.settle) s = .next (f s) := by
  simp [act, h.awake, State.settle_of_quiet h.quiet]

/-- A message that may be taken is taken. -/
theorem Takes.run {row : MessageRow} {m : Message} {rest : List Message} (h : Takes row m rest s)
    (eff : Message → State → State × Reply) :
    takeMessageRow row eff s = .next (State.reply m (eff m (s.removeHead rest))) := by
  have hs := h.settled
  simp [takeMessageRow, act, hs.awake, State.settle_of_quiet hs.quiet, State.takeRow, h.head,
    h.isRow, h.may, State.takeMessage]

/-- A message row that is not at the head, or that may not be taken, is not taken. -/
theorem takeMessageRow_waits {row : MessageRow} (hs : s.Settled)
    (h : ∀ m rest, s.cch.fifo = m :: rest → ¬ (m.row = row ∧ s.mayTake row = true))
    (eff : Message → State → State × Reply) : takeMessageRow row eff s = .next s := by
  have : s.takeRow row eff = s := by
    unfold State.takeRow
    split
    · next m rest hf => simp [h m rest hf]
    · rfl
  simp [takeMessageRow, act, hs.awake, State.settle_of_quiet hs.quiet, this]

/-- Taking a message changes the channel and the mark of the frame. -/
theorem State.removeHead_eq (rest : List Message) :
    s.removeHead rest =
      { s with
        cch := { s.cch with
          fifo := rest
          hold := holdAt ({ s.cch with fifo := rest } : Cch).fill s.cch.hold
          counters := { s.cch.counters with executed := min 65535 (s.cch.counters.executed + 1) } }
        frame := { s.frame with taken := true } } := rfl

/-- Reports of the action done, queued in the order in which they were raised. -/
theorem State.deliver_eq :
    s.deliver =
      State.reporting s.cch.outbox { s with cch := { s.cch with outbox := [] } } := rfl

theorem State.reporting_nil : s.reporting [] = s := rfl

theorem State.deliver_of_empty (h : s.cch.outbox = []) : s.deliver = s := by
  obtain ⟨⟩ := s
  next cch _ _ _ _ _ _ _ _ _ _ _ =>
    obtain ⟨⟩ := cch
    simp_all [State.deliver_eq, State.reporting]

theorem Cch.enqueue_class2 {r : Record} (h : r.kind.cls = 2) (c : Cch) :
    c.enqueue r = { c with class2 := c.class2 ++ [r] } := by
  simp [Cch.enqueue, h]

@[simp] theorem ack_cls (c : Code) : (ack c).kind.cls = 2 := rfl
@[simp] theorem data_cls (ws : List Word24) : (data ws).kind.cls = 2 := rfl

/-- An answer is queued first, and the reports of the action behind it (R34). -/
theorem State.reply_eq (m : Message) (t : State) (r : Reply) (h : r.kind.cls = 2) :
    State.reply m (t, r) =
      State.reporting t.cch.outbox
        { t with cch := { t.cch with outbox := [], class2 := t.cch.class2 ++ [r.record m.tag] } } := by
  have : (r.record m.tag).kind.cls = 2 := h
  simp [State.reply, State.deliver_eq, Cch.enqueue_class2 this, State.mapCch]

/-- A message answered without any other effect. -/
theorem State.reply_removeHead (hs : s.Settled) (m : Message) (rest : List Message) (r : Reply)
    (h : r.kind.cls = 2) : State.reply m (s.removeHead rest, r) = s.answered m rest r := by
  rw [State.reply_eq _ _ _ h, State.removeHead_eq]
  simp [State.answered, Cch.answered, hs.reported, State.reporting]

theorem State.reply_ack (hs : s.Settled) (m : Message) (rest : List Message) (c : Code) :
    State.reply m (s.removeHead rest, ack c) = s.answered m rest (ack c) :=
  State.reply_removeHead hs m rest _ rfl

theorem State.reply_data (hs : s.Settled) (m : Message) (rest : List Message) (ws : List Word24) :
    State.reply m (s.removeHead rest, data ws) = s.answered m rest (data ws) :=
  State.reply_removeHead hs m rest _ rfl

theorem State.reply_ack_eq (m : Message) (t : State) (c : Code) :
    State.reply m (t, ack c) =
      State.reporting t.cch.outbox
        { t with cch := { t.cch with
            outbox := [], class2 := t.cch.class2 ++ [(ack c).record m.tag] } } :=
  State.reply_eq m t _ rfl

theorem State.reply_data_eq (m : Message) (t : State) (ws : List Word24) :
    State.reply m (t, data ws) =
      State.reporting t.cch.outbox
        { t with cch := { t.cch with
            outbox := [], class2 := t.cch.class2 ++ [(data ws).record m.tag] } } :=
  State.reply_eq m t _ rfl

/-! ### What the queue of replies can do (R36, R38, R39) -/

/-- A record of class 1 or 3 that finds no room is dropped whole. -/
theorem Cch.enqueue_full {r : Record} {c : Cch} (h : r.kind.cls = 1 ∨ r.kind.cls = 3)
    (hr : c.room < r.length) : c.enqueue r = c.dropRecord := by
  rcases h with h | h <;> simp [Cch.enqueue, h, hr]

/-- The fields of the channel that a record queued leaves as they are. -/
@[simp] theorem Cch.enqueue_frame (r : Record) (c : Cch) :
    (c.enqueue r).asm = c.asm ∧ (c.enqueue r).fifo = c.fifo ∧ (c.enqueue r).tail = c.tail ∧
    (c.enqueue r).hold = c.hold ∧ (c.enqueue r).flight = c.flight ∧
    (c.enqueue r).outbox = c.outbox := by
  unfold Cch.enqueue Cch.dropRecord
  (repeat' split) <;> simp

/-- Reports queued leave everything but the channel as it is. -/
@[simp] theorem State.reporting_frame (rs : List Record) :
    (s.reporting rs).sli = s.sli ∧ (s.reporting rs).tbm = s.tbm ∧ (s.reporting rs).stg = s.stg ∧
    (s.reporting rs).swu = s.swu ∧ (s.reporting rs).sce = s.sce ∧ (s.reporting rs).dlu = s.dlu ∧
    (s.reporting rs).pmn = s.pmn ∧ (s.reporting rs).tck = s.tck ∧ (s.reporting rs).csq = s.csq ∧
    (s.reporting rs).tun = s.tun ∧ (s.reporting rs).frame = s.frame ∧
    (s.reporting rs).pending = s.pending := by
  simp [State.reporting]

/-- A list of records queued leaves the assembler, the FIFO and HOLD as they are. -/
theorem Cch.foldl_enqueue_frame (rs : List Record) (c : Cch) :
    let d := rs.foldl (fun c r => c.enqueue r) c
    d.asm = c.asm ∧ d.fifo = c.fifo ∧ d.tail = c.tail ∧ d.hold = c.hold ∧ d.flight = c.flight ∧
      d.outbox = c.outbox := by
  induction rs generalizing c with
  | nil => simp
  | cons r rs ih => simpa using ih (c.enqueue r)

@[simp] theorem State.reporting_fifo (rs : List Record) :
    (s.reporting rs).cch.asm = s.cch.asm ∧ (s.reporting rs).cch.fifo = s.cch.fifo ∧
    (s.reporting rs).cch.tail = s.cch.tail ∧ (s.reporting rs).cch.hold = s.cch.hold ∧
    (s.reporting rs).cch.flight = s.cch.flight ∧
    (s.reporting rs).cch.outbox = s.cch.outbox :=
  Cch.foldl_enqueue_frame rs s.cch

end Sys2Proof.Machine
end

