-- ==== Sys2Proof/Laws/Close.lean ====
section
/-! SUPPORT. The close of a frame leaves the lock, its counts and the received words as they are, in a state
in which no lock, no link loss and no frame is due: what a sync interval is judged by. -/

namespace Sys2Proof.Machine

variable (s : State)

/-- What the lock, the link loss and the delivery of a frame are judged by. -/
def State.linkCore (s : State) := (s.sli.lock, s.sli.good, s.sli.bad, s.sli.received)

/-- No lock, no link loss and no frame is due. -/
def State.linkIdle (s : State) : Prop := s.lockDue = false ∧ s.lossDue = false ∧ s.frameDue = false

theorem State.linkIdle_congr {s t : State} (h : t.linkCore = s.linkCore) (hs : s.linkIdle) : t.linkIdle := by
  simp only [State.linkCore, Prod.mk.injEq] at h
  obtain ⟨a, b, c, d⟩ := h
  simpa [State.linkIdle, State.lockDue, State.lossDue, State.frameDue, a, b, c, d] using hs

theorem State.serveLink_idle (h : s.linkIdle) : s.serveLink = s := by
  obtain ⟨a, b, c⟩ := h
  unfold State.serveLink State.deliverDue
  simp only [a, b]
  simp [State.frameDue] at c
  cases hl : s.sli.lock <;> cases hr : s.sli.received <;> simp_all

/-- With nothing of the link due, `settle` leaves it as it is. -/
theorem State.settle_core (h : s.linkIdle) : s.settle.linkCore = s.linkCore := by
  unfold State.settle
  split
  · rfl
  · simp [State.linkCore, State.serveLink_idle s h]

/-- No command changes the lock or what it is judged by. -/
theorem MessageRow.effect_core (r : MessageRow) (m : Message) : (r.effect m s).1.linkCore = s.linkCore := by
  cases r
  case slotmap =>
    simp only [MessageRow.effect]
    unfold slotmapEffect
    (repeat' split) <;> simp [State.linkCore, State.mapSli]
  all_goals simp [MessageRow.effect, State.linkCore]

theorem State.takePedals_core (n : Nat) (s : State) (h : s.linkIdle) :
    (State.takePedals n s).linkCore = s.linkCore := by
  induction n generalizing s with
  | zero => rfl
  | succ n ih =>
    unfold State.takePedals
    split
    · next e rest _ =>
      have h1 : (s.takePedal e rest).linkCore = s.linkCore := by simp [State.linkCore]
      have h2 := State.linkIdle_congr h1 h
      rw [ih _ (State.linkIdle_congr (State.settle_core _ h2) h2), State.settle_core _ h2, h1]
    · rfl

/-- A further operation that leaves the link as it is, in a state that has. -/
theorem State.linkCore_step {f : State → State} {s t : State} (hs : t.linkCore = s.linkCore) (h : s.linkIdle)
    (hf : t.linkIdle → (f t).linkCore = t.linkCore) : (f t).linkCore = s.linkCore :=
  (hf (State.linkIdle_congr hs h)).trans hs

theorem State.settle_after {t : State} (ht : t.linkCore = s.linkCore) (h : s.linkIdle) :
    t.settle.linkCore = s.linkCore :=
  State.linkCore_step (f := State.settle) ht h (fun h => State.settle_core _ h)

theorem State.closeExecutor_core (h : s.linkIdle) : s.closeExecutor.linkCore = s.linkCore := by
  unfold State.closeExecutor
  apply State.settle_after _ _ h
  unfold State.executorLook
  (repeat' split)
  · next m rest _ _ =>
    have := MessageRow.effect_core (s.removeHead rest) m.row m
    simpa [State.takeMessage, State.reply, State.linkCore] using this
  all_goals rfl

theorem State.takeHolds_core (n : Nat) (s : State) (h : s.linkIdle) :
    (State.takeHolds n s).linkCore = s.linkCore := by
  induction n generalizing s with
  | zero => rfl
  | succ n ih =>
    unfold State.takeHolds
    split
    · next e  _ =>
      have h1 : (s.holdEvent e).deliver.linkCore = s.linkCore := by simp [State.linkCore]
      have h2 := State.linkIdle_congr h1 h
      rw [ih _ (State.linkIdle_congr (State.settle_core _ h2) h2), State.settle_core _ h2, h1]
    · rfl

theorem State.loaderTakes_core (n : Nat) (s : State) :
    (State.loaderTakes n s).linkCore = s.linkCore := by
  induction n generalizing s with
  | zero => rfl
  | succ n ih =>
    unfold State.loaderTakes
    split
    · rw [ih]; simp [State.linkCore]
    · rfl

theorem State.closeBoundary_core (h : s.linkIdle) : s.closeBoundary.linkCore = s.linkCore := by
  unfold State.closeBoundary
  have h1 : (if s.boundaryDue then s.blockBoundary.settle else s).linkCore = s.linkCore := by
    split
    · exact State.settle_after _ (by simp [State.linkCore]) h
    · rfl
  generalize (if s.boundaryDue then s.blockBoundary.settle else s) = t at h1
  dsimp only
  split
  · have hh : (State.takeHolds 12 t.closeTails).linkCore = s.linkCore :=
      State.linkCore_step (f := State.takeHolds 12) (t := t.closeTails)
        (by rw [← h1]; simp [State.linkCore]) h (fun h => State.takeHolds_core _ _ h)
    have h3 : ((State.takeHolds 12 t.closeTails).closePreparation.closeCrossfade.closeStart.loaderTakes 4).linkCore
        = s.linkCore := by
      rw [State.loaderTakes_core, ← hh]; simp [State.linkCore]
    have h4 := State.linkCore_step (f := State.closeList) h3 h (fun h => by
      unfold State.closeList
      split
      · exact State.settle_after _ (by simp [State.linkCore]) h
      · rfl)
    rw [← h4]; simp [State.linkCore]
  · exact h1

theorem State.endFrame_core (s : State) : (s.endFrame.mapSli Sli.switchOver).linkCore = s.linkCore := by
  have h (l : Sli) : l.switchOver.lock = l.lock ∧ l.switchOver.good = l.good ∧
      l.switchOver.bad = l.bad ∧ l.switchOver.received = l.received := by
    unfold Sli.switchOver; split <;> simp
  have e : (s.endFrame.mapSli Sli.switchOver).sli = s.endFrame.sli.switchOver := rfl
  simp only [State.linkCore, e, h]
  rfl

/-- The close of a frame leaves the link as it is (R4, R6). -/
theorem State.closeFrame_core (h : s.linkIdle) : s.closeFrame.linkCore = s.linkCore := by
  unfold State.closeFrame
  split
  · dsimp only
    have a1 := State.linkCore_step (f := State.closeExecutor)
      (State.takePedals_core s.pmn.events.length s h) h (fun h => State.closeExecutor_core _ h)
    have a2 := State.linkCore_step (f := State.closeControl) a1 h (fun h => by
      unfold State.closeControl
      split
      · exact State.settle_after _ (by simp [State.linkCore]) h
      · rfl)
    have a3 := State.linkCore_step (f := State.closeExecutor) a2 h
      (fun h => State.closeExecutor_core _ h)
    have a4 := State.linkCore_step (f := State.closeBeat) a3 h (fun h => by
      unfold State.closeBeat
      split
      · exact State.settle_after _ (by simp [State.linkCore]) h
      · rfl)
    have a5 := State.linkCore_step (f := State.closeBoundary) a4 h
      (fun h => State.closeBoundary_core _ h)
    have a6 := State.linkCore_step (f := State.closeMeasure) a5 h (fun h => by
      unfold State.closeMeasure
      split
      · exact State.settle_after _ (by simp [State.linkCore]) h
      · rfl)
    exact (State.endFrame_core _).trans a6
  · rfl

end Sys2Proof.Machine
end

