-- ==== Sys2Proof/Laws/Cues.lean ====
section
/-! SUPPORT. What a beat boundary and the load of a cue record do, each said once in the closed form of
the statements: the consumers of a boundary (`State.BoundaryRaised`) and a load (`State.Loads`). -/

namespace Sys2Proof.Machine

/-! ### Beat boundaries (R172, R179, R180, R185, R188, R190) -/

/-- A start with a count-in waits (R184). -/
theorem Csq.countInWaits_iff (q : Csq) :
    q.countInWaits = true ↔ ∃ w, q.waiting = some w ∧ 1 ≤ w.countIn := by
  unfold Csq.countInWaits
  cases q.waiting <;> simp [Nat.lt_iff_add_one_le]

/-- What the sequencer makes of a beat boundary, with no cue event due (R185, R188, R190). -/
theorem Csq.takeBoundary_takes {q : Csq} (h : q.due = none) (advancing bar : Bool) :
    q.TakesBoundary (advancing = true) (bar = true) (q.takeBoundary advancing bar) := by
  unfold Csq.TakesBoundary
  dsimp only
  rw [← Csq.countInWaits_iff]
  obtain ⟨state, waiting, list, tag, current, lookAhead, remaining, barsLeft, heldOp, due⟩ := q
  subst h
  generalize hc : Csq.countInWaits _ = c
  rcases state with _ | _ | _ | _ | _ <;> rcases heldOp with _ | _ | _ <;>
    rcases remaining with _ | n <;> cases advancing <;> cases bar <;> cases c <;>
    simp [Csq.takeBoundary, hc, Nat.sub_eq_zero_iff_le]

/-- When a boundary clicks (R180). -/
theorem State.clicks_iff (s : State) : s.clicks = true ↔
    s.tck.clickMode = .on ∨ s.csq.state = .countIn ∨
      (s.tck.clickMode = .countInOnly ∧ s.csq.countInWaits = true) := by
  unfold State.clicks
  cases s.tck.clickMode <;> simp

/-- A boundary at which no cue event falls due leaves the state of the sequencer and the start that waits. -/
theorem Csq.takeBoundary_none {q : Csq} {advancing bar : Bool}
    (h : (q.takeBoundary advancing bar).due = none) :
    (q.takeBoundary advancing bar).state = q.state ∧
    (q.takeBoundary advancing bar).waiting = q.waiting := by
  revert h
  unfold Csq.takeBoundary
  (repeat' split) <;> simp

/-- A burst that a boundary starts changes nothing but the click. -/
theorem State.clickBoundary_eq (s : State) : s.clickBoundary =
    { s with tck := if s.clicks then
        { s.tck with burstPos := 0, burst := some (if s.tck.beat = 1 then .accent else .normal) }
      else s.tck } := by
  unfold State.clickBoundary
  split <;> rfl

/-- What a boundary hands to its consumers, with no cue event due (R172). -/
theorem State.raiseBoundary_raised {s : State} (h : s.csq.due = none) (advancing : Bool) :
    s.BoundaryRaised (advancing = true) s.tck.beat
      (s.raiseBoundary advancing (s.tck.beat == 1)) := by
  have hb := Csq.takeBoundary_takes h advancing (s.tck.beat == 1)
  simp only [beq_iff_eq] at hb
  let u := (s.latchPending (s.tck.beat == 1)).mapCsq (Csq.takeBoundary advancing (s.tck.beat == 1))
  have hu : s.raiseBoundary advancing (s.tck.beat == 1) =
    if u.csq.due.isSome then u else u.clickBoundary := rfl
  have hc := u.clicks_iff
  have ht : u.tck = s.tck := rfl
  unfold State.BoundaryRaised
  dsimp only
  rw [← Csq.countInWaits_iff]
  have hq : u.csq = s.csq.takeBoundary advancing (s.tck.beat == 1) := rfl
  rw [← hq] at hb
  by_cases hd : u.csq.due = none
  · have hn := Csq.takeBoundary_none (hq ▸ hd)
    rw [← hq] at hn
    have hw : u.csq.countInWaits = s.csq.countInWaits := by simp [Csq.countInWaits, hn.2]
    rw [ht, hn.1, hw] at hc
    rw [hu, ← hc]
    simp only [hd, State.clickBoundary_eq, ht]
    refine ⟨rfl, hb, ?_, ?_⟩
    · intro _ hx; simp [hx]
    · rintro (hx | hx)
      · exact absurd hd hx
      · simp [hx]
  · have hs : u.csq.due.isSome = true := by simpa [Option.isSome_iff_ne_none] using hd
    rw [hu, if_pos hs]
    exact ⟨rfl, hb, fun hx => absurd hx hd, fun _ => ⟨rfl, rfl⟩⟩

/-- What is raised reads of a state only the switches, the sequencer, the click and the block boundary of the
frame. -/
theorem State.BoundaryRaised.congr {s u : State} {advancing : Prop} {beat : Nat} {t v : State}
    (h : u.BoundaryRaised advancing beat v) (hs : u.swu = s.swu) (hq : u.csq = s.csq)
    (hf : u.frame.atBlock = s.frame.atBlock) (hm : u.tck.clickMode = s.tck.clickMode)
    (hb : u.tck.burst = s.tck.burst) (hp : u.tck.burstPos = s.tck.burstPos)
    (ts : t.swu = v.swu) (tq : t.csq = v.csq) (tb : t.tck.burst = v.tck.burst)
    (tp : t.tck.burstPos = v.tck.burstPos) : s.BoundaryRaised advancing beat t := by
  unfold State.BoundaryRaised at *
  rw [hs, hq, hf, hm, hb, hp] at h
  rw [ts, tq, tb, tp]
  exact h

/-- A new period in the middle of a beat raises a restart boundary (R173). -/
theorem State.takePeriod_raised {s : State} (h : s.csq.due = none) (P : Nat) (hp : s.tck.phase ≠ 0) :
    s.BoundaryRaised False s.tck.beat (s.takePeriod P) := by
  let u := (s.mapTck fun t => { t with period := P, tapOpen := false, tapHistory := [] }).mapTck
    fun t => { t with phase := 0 }
  have hu : s.takePeriod P = (u.raiseBoundary false (u.tck.beat == 1)).syncLines := by
    simp [State.takePeriod, hp, State.restartBoundary, u]
  have := State.raiseBoundary_raised (s := u) h false
  simp only [Bool.false_eq_true] at this
  rw [hu]
  exact this.congr rfl rfl rfl rfl rfl rfl (by simp) (by simp) (by simp) (by simp)

/-- A tap that sets a period raises its boundary: an advancing one late in the beat, and else a restart
(R177). -/
theorem State.tapPeriod_raised {s : State} (h : s.csq.due = none) (src : Source) (tag : Byte)
    (hp : s.tck.phase ≠ 0) :
    (s.tck.period ≤ 2 * s.tck.phase →
      s.BoundaryRaised True s.tck.nextBeat (s.tapPeriod src tag)) ∧
    (¬ s.tck.period ≤ 2 * s.tck.phase →
      s.BoundaryRaised False s.tck.beat (s.tapPeriod src tag)) := by
  let v := s.mapTck fun t => { t with period := s.tck.tapHistory.sum / s.tck.tapHistory.length }
  rw [Nat.mul_comm 2]
  constructor <;> intro hl
  · let u := v.mapTck fun t => { t with phase := 0, beat := s.tck.nextBeat }
    have hu : s.tapPeriod src tag =
        (u.raiseBoundary true (u.tck.beat == 1)).syncLines.tempoReport src tag true := by
      simp only [State.tapPeriod, hp, hl, ↓reduceIte, ne_eq, not_false_eq_true, decide_true, Bool.and_self]
      rfl
    have := State.raiseBoundary_raised (s := u) h true
    rw [eq_self] at this
    rw [hu]
    exact this.congr rfl rfl rfl rfl rfl rfl (by simp) (by simp) (by simp) (by simp)
  · let u := v.mapTck fun t => { t with phase := 0 }
    have hu : s.tapPeriod src tag =
        (u.raiseBoundary false (u.tck.beat == 1)).syncLines.tempoReport src tag false := by
      simp only [State.tapPeriod, hp, hl, ↓reduceIte, ne_eq, not_false_eq_true, decide_false, Bool.and_false,
        Bool.false_eq_true]
      rfl
    have := State.raiseBoundary_raised (s := u) h false
    simp only [Bool.false_eq_true] at this
    rw [hu]
    exact this.congr rfl rfl rfl rfl rfl rfl (by simp) (by simp) (by simp) (by simp)

/-! ### Requests read neither the clock nor the sequencer -/

/-- An arm request. -/
theorem State.armRequest_apart (a : ArmRequest) (s : State) (k : Tck) (c : Csq) :
    ({ s with tck := k, csq := c } : State).armRequest a =
      ({ (s.armRequest a).1 with tck := k, csq := c }, (s.armRequest a).2) := by
  unfold State.armRequest
  dsimp only
  (repeat' split) <;> rfl

/-- The end of a pending switch. -/
theorem State.removePending_apart (code : Code) (frm : Option SceneNo) (s : State) (k : Tck) (c : Csq) :
    ({ s with tck := k, csq := c } : State).removePending code frm =
      { s.removePending code frm with tck := k, csq := c } := by
  unfold State.removePending State.clearDemand
  cases hp : s.swu.pending with
  | none => simp
  | some p =>
    simp
    cases (p.req.target.bind fun n => s.stg.holding n) <;> simp [State.mapSwu, *] <;> rfl

/-- A request that becomes the pending switch. -/
theorem State.newPending_apart (r : Request) (s : State) (k : Tck) (c : Csq) :
    ({ s with tck := k, csq := c } : State).newPending r =
      ({ (s.newPending r).1 with tck := k, csq := c }, (s.newPending r).2) := by
  have hr : State.refusePending .superseded { s with tck := k, csq := c } =
    { s.refusePending .superseded with tck := k, csq := c } := State.removePending_apart ..
  unfold State.newPending
  simp only [hr]
  cases r.target with
  | none => rfl
  | some n =>
    simp only [State.armRequest_apart]
    split <;> rfl

/-- A base switch. -/
theorem State.baseSwitch_apart (r : Request) (s : State) (k : Tck) (c : Csq) :
    ({ s with tck := k, csq := c } : State).baseSwitch r =
      ({ (s.baseSwitch r).1 with tck := k, csq := c }, (s.baseSwitch r).2) := by
  have hs : ∀ s : State, ({ s with tck := k, csq := c } : State).switchRequest r =
      ({ (s.switchRequest r).1 with tck := k, csq := c }, (s.switchRequest r).2) := by
    intro s
    have hr : State.refusePending .superseded { s with tck := k, csq := c } =
      { s.refusePending .superseded with tck := k, csq := c } := State.removePending_apart ..
    have hd : State.destination { s with tck := k, csq := c } = s.destination := rfl
    have ho : State.otherParty { s with tck := k, csq := c } = s.otherParty := rfl
    unfold State.switchRequest State.turnRequest
    simp only [hr, hd, ho, State.newPending_apart, State.removePending_apart]
    (repeat' split) <;> first | rfl | simp_all
    next h _ _ _ =>
      refine (State.removePending_apart .superseded s.destination
        ((s.setReversal none).switchReport h .superseded s.destination h.target false false) k c).trans ?_
      simp
  unfold State.baseSwitch
  dsimp only
  split
  · exact hs s
  · split
    · rfl
    · exact hs (s.mapSwu fun u => { u with stack := u.stack.map fun e => { e with saved := r.target } })

/-! ### The load of a record (R186, R187, R191) -/

/-- The lines take their values by the period of the clock alone (R109). -/
theorem State.syncLines_apart (s : State) (k : Tck) (c : Csq) (hk : k.period = s.tck.period) :
    ({ s with tck := k, csq := c } : State).syncLines = { s.syncLines with tck := k, csq := c } := by
  have h : ∀ (l : LineNo) (s : State), k.period = s.tck.period →
      State.syncLine l { s with tck := k, csq := c } = { s.syncLine l with tck := k, csq := c } := by
    intro l s hk
    unfold State.syncLine
    simp only [hk]
    (repeat' split) <;> rfl
  have ht : ∀ (l : LineNo) (s : State), (s.syncLine l).tck = s.tck := by
    intro l s; unfold State.syncLine; (repeat' split) <;> rfl
  unfold State.syncLines forEach four
  simp only [List.foldl_cons, List.foldl_nil]
  rw [h 0 _ hk, h 1 _ (by simpa [ht] using hk), h 2 _ (by simpa [ht] using hk), h 3 _ (by simpa [ht] using hk)]

/-- A burst that a boundary starts changes the clock alone. -/
theorem State.clickBoundary_tck (s : State) : s.clickBoundary = { s with tck := s.clickBoundary.tck } := by
  unfold State.clickBoundary
  split <;> rfl

/-- A boundary changes the pending switch, the sequencer and the click alone (R172). -/
theorem State.raiseBoundary_eq (a b : Bool) (s : State) :
    s.raiseBoundary a b =
      { s with
        swu := (s.latchPending b).swu, csq := s.csq.takeBoundary a b
        tck := (s.raiseBoundary a b).tck } := by
  unfold State.raiseBoundary
  dsimp only
  split
  · rfl
  · rw [State.clickBoundary_tck]; rfl

/-- The same of a restart boundary (R173). -/
theorem State.restartBoundary_eq (s : State) :
    s.restartBoundary =
      { s with
        swu := (s.latchPending (s.tck.beat == 1)).swu, csq := s.csq.takeBoundary false (s.tck.beat == 1)
        tck := s.restartBoundary.tck } := State.raiseBoundary_eq ..

/-- A restart boundary keeps the period. -/
theorem State.restartBoundary_period (s : State) : s.restartBoundary.tck.period = s.tck.period := by
  unfold State.restartBoundary State.raiseBoundary
  dsimp only
  split
  · rfl
  · rw [State.clickBoundary_eq]; split <;> rfl

/-- A new period reads a sequencer that a restart boundary leaves as it is for the click alone (R173, R180). -/
theorem State.takePeriod_apart (P : Nat) (s : State) (c : Csq) (hc : ∀ b, c.takeBoundary false b = c) :
    ({ s with csq := c } : State).takePeriod P =
      { s.takePeriod P with tck := (({ s with csq := c } : State).takePeriod P).tck, csq := c } := by
  unfold State.takePeriod
  generalize hv : (s.mapTck fun t => { t with period := P, tapOpen := false, tapHistory := [] }) = v
  have e : (State.mapTck (fun t => { t with period := P, tapOpen := false, tapHistory := [] })
    ({ s with csq := c } : State)) = { v with csq := c } := by rw [← hv]; rfl
  rw [e]
  by_cases h : s.tck.phase = 0
  · simp only [h, ne_eq, not_true_eq_false, ↓reduceIte]
    rw [State.syncLines_apart v v.tck c rfl]
  · simp only [h, ne_eq, not_false_eq_true, ↓reduceIte]
    have hp : ({ v with csq := c } : State).restartBoundary =
        { v.restartBoundary with tck := (({ v with csq := c } : State).restartBoundary).tck, csq := c } := by
      refine (State.restartBoundary_eq { v with csq := c }).trans ?_
      rw [hc]
      generalize ({ v with csq := c } : State).restartBoundary.tck = k
      have hx := State.restartBoundary_eq v
      generalize v.restartBoundary = x at *
      generalize x.tck = y at *
      subst hx
      rfl
    rw [hp, State.syncLines_apart _ _ _ (by rw [State.restartBoundary_period, State.restartBoundary_period])]

/-- A new period in the clock (R173). -/
theorem State.takePeriod_tck (P : Nat) (s : State) :
    (s.takePeriod P).tck = { s.tck with
      period := P, phase := 0, tapOpen := false, tapHistory := []
      burstPos := (s.takePeriod P).tck.burstPos, burst := (s.takePeriod P).tck.burst } := by
  unfold State.takePeriod State.restartBoundary State.raiseBoundary
  by_cases h : s.tck.phase = 0
  · simp [h, State.mapTck]
  · simp only [h, ne_eq, not_false_eq_true, ↓reduceIte, State.syncLines_frame]
    split
    · rfl
    · rw [State.clickBoundary_eq]; split <;> rfl


/-- The tempo of a record, as the period it gives. -/
theorem State.applyTempo_apart (n : Nat) (s : State) (c : Csq) (hc : ∀ b, c.takeBoundary false b = c) :
    ({ s with csq := c } : State).applyTempo n =
      { s.applyTempo n with tck := (({ s with csq := c } : State).applyTempo n).tck, csq := c } := by
  unfold State.applyTempo
  split
  · rfl
  · exact State.takePeriod_apart _ s c hc

/-- The switch of a record (R186 step 3), as a base switch. -/
theorem State.cueSwitch_apart (q : Cue) (s : State) (k : Tck) (c : Csq) :
    ({ s with tck := k, csq := c } : State).cueSwitch q =
      ({ (s.cueSwitch q).1 with tck := k, csq := c }, (s.cueSwitch q).2) := by
  unfold State.cueSwitch
  split
  · rfl
  · exact State.baseSwitch_apart ..

/-- The look-ahead in closed form (R187). -/
theorem State.lookAhead_eq (i : Nat) (s : State) (k : Tck) (c : Csq) :
    let next := if (s.tbm.cue i).cont = true ∧ i + 1 ≤ 1023 then (s.tbm.cue (i + 1)).scene else none
    let armed : State × Code :=
      match next with
      | none => (s.clearCuePins, .skipped)
      | some n => s.clearCuePins.armRequest
          { scene := n, pin := false, cuePin := true, demand := false, origin := .lookAhead, tag := 0 }
    State.lookAhead i { s with tck := k, csq := c } =
      ({ armed.1 with
         tck := k
         csq := { c with lookAhead :=
           if (s.tbm.cue i).cont = true ∧ i + 1 ≤ 1023 then some (i + 1) else none } },
       decide (armed.2 = .ok ∨ armed.2 = .already ∨ armed.2 = .accepted)) := by
  intro next armed
  by_cases h : (s.tbm.cue i).cont = true ∧ i + 1 ≤ 1023
  · have hn : next = (s.tbm.cue (i + 1)).scene := if_pos h
    have e : State.lookAhead i { s with tck := k, csq := c } =
        match (s.tbm.cue (i + 1)).scene with
        | none => ({ s.clearCuePins with tck := k, csq := { c with lookAhead := some (i + 1) } }, false)
        | some n =>
          let a := State.armRequest
            { scene := n, pin := false, cuePin := true, demand := false, origin := .lookAhead, tag := 0 }
            { s.clearCuePins with tck := k, csq := { c with lookAhead := some (i + 1) } }
          (a.1, a.2 == .ok || a.2 == .already || a.2 == .accepted) := by
      exact if_pos h
    rw [e, if_pos h]
    simp only [armed, hn]
    cases (s.tbm.cue (i + 1)).scene with
    | none => simp
    | some n =>
      simp only [State.armRequest_apart]
      simp [Bool.or_assoc, Bool.decide_or, Bool.beq_eq_decide_eq]
  · have hn : next = none := if_neg h
    rw [if_neg h]
    simp only [armed, hn]
    refine (if_neg h).trans ?_
    simp
    rfl

/-- The load of a record in closed form (R186, R187, R191), whatever sequencer it finds that a restart boundary
would leave as it is. -/
theorem State.loadRecord_eq (i : Nat) (s : State) (c : Csq) (hc : ∀ b, c.takeBoundary false b = c) :
    let q := s.tbm.cue i
    let k := (({ s with csq := c } : State).applyTempo q.tempo).tck
    let switched := (s.applyTempo q.tempo).cueSwitch q
    let next := if q.cont = true ∧ i + 1 ≤ 1023 then (s.tbm.cue (i + 1)).scene else none
    let armed : State × Code :=
      match next with
      | none => (switched.1.clearCuePins, .skipped)
      | some n => switched.1.clearCuePins.armRequest
          { scene := n, pin := false, cuePin := true, demand := false, origin := .lookAhead, tag := 0 }
    ({ s with csq := c } : State).loadRecord i =
      { armed.1 with
        tck := k
        csq := { c with
          current := some i, remaining := q.length, state := .running
          lookAhead := if q.cont = true ∧ i + 1 ≤ 1023 then some (i + 1) else none }
        cch := { armed.1.cch with outbox := armed.1.cch.outbox ++ [cueRecord c.tag
          (loadedCode switched.2) 1 0 c.list i q.scene q.length
          (decide (armed.2 = .ok ∨ armed.2 = .already ∨ armed.2 = .accepted)) 0] } } := by
  intro q k switched next armed
  have htbm : switched.1.tbm = s.tbm := by
    simp only [switched]; unfold State.cueSwitch; split <;> simp
  have h1 : ({ s with csq := c } : State).loadRecord i =
      let a := ({ s with csq := c } : State).applyTempo q.tempo
      let sw := (a.mapCsq fun c =>
        { c with current := some i, remaining := q.length, state := .running }).cueSwitch q
      let la := sw.1.lookAhead i
      la.1.cueReport (loadedCode sw.2) 1 0 i q.length la.2 0 := rfl
  rw [h1]
  dsimp only
  have e := State.applyTempo_apart q.tempo s c hc
  have hk : (({ s with csq := c } : State).applyTempo q.tempo).tck = k := rfl
  generalize ({ s with csq := c } : State).applyTempo q.tempo = a at e hk
  rw [hk] at e
  subst e
  let loading : Csq := { c with current := some i, remaining := q.length, state := .running }
  have e2 := State.cueSwitch_apart q (s.applyTempo q.tempo) k loading
  have e3 : (State.mapCsq
      (fun c => { c with current := some i, remaining := q.length, state := .running })
      { s.applyTempo q.tempo with tck := k, csq := c }) =
        { s.applyTempo q.tempo with tck := k, csq := loading } := rfl
  rw [e3, e2]
  have e4 := State.lookAhead_eq i switched.1 k loading
  dsimp only at e4 ⊢
  rw [e4, htbm]
  have hn : (if q.cont = true ∧ i + 1 ≤ 1023 then (s.tbm.cue (i + 1)).scene else none) = next := rfl
  have ht : armed.1.tbm = s.tbm := by
    simp only [armed]
    cases next with
    | none => simpa using htbm
    | some n => simpa using htbm
  change State.cueReport (loadedCode switched.2) 1 0 i q.length
    (decide (armed.2 = .ok ∨ armed.2 = .already ∨ armed.2 = .accepted)) 0
    { armed.1 with
      tck := k
      csq := { c with
        current := some i, remaining := q.length, state := .running
        lookAhead := if q.cont = true ∧ i + 1 ≤ 1023 then some (i + 1) else none } } = _
  clear_value armed switched k
  simp [State.cueReport, State.raise, State.mapCch, cueRecord, ht, q]

/-- Expression changes leave the command FIFO as it is. -/
theorem takeExpressions_fifo (es : List PedalEvent) (s : State) :
    (takeExpressions es s).cch.fifo = s.cch.fifo := by
  induction es generalizing s with
  | nil => rfl
  | cons e es ih =>
    cases e with
    | press f => rfl
    | release f => rfl
    | expression b v =>
      simp only [takeExpressions, ih]
      simp only [State.expressionChange, State.applyExpMaps_frame, State.pedalReport]
      (repeat' split) <;> rfl

/-- The same of the changes that waited. -/
theorem State.drainExpressions_fifo (s : State) : s.drainExpressions.cch.fifo = s.cch.fifo := by
  unfold State.drainExpressions
  split
  · rfl
  · exact takeExpressions_fifo ..

/-- The end of a pending switch leaves the command FIFO as it is. -/
theorem State.removePending_fifo (code : Code) (frm : Option SceneNo) (s : State) :
    (s.removePending code frm).cch.fifo = s.cch.fifo := by
  unfold State.removePending State.clearDemand
  (repeat' split) <;> rfl

/-- The same of a base switch. -/
theorem State.baseSwitch_fifo (r : Request) (s : State) : (s.baseSwitch r).1.cch.fifo = s.cch.fifo := by
  have hs : ∀ s : State, (s.switchRequest r).1.cch.fifo = s.cch.fifo := by
    intro s
    unfold State.switchRequest State.turnRequest State.newPending State.refusePending
    dsimp only
    (repeat' split) <;>
      simp [State.removePending_fifo, State.setReversal, State.makePending, State.switchReport,
        State.raise, State.mapSwu, State.mapCch]
  unfold State.baseSwitch
  (repeat' split) <;> first | exact hs _ | rfl

/-- A new period in the delay lines (R109, R119). -/
theorem State.takePeriod_dlu (P : Nat) (s : State) :
    (s.takePeriod P).dlu = { s.dlu with lines := (s.takePeriod P).dlu.lines } ∧
    ∀ l, (s.takePeriod P).dlu.lines.get l = s.sce.handedLine P l (s.dlu.lines.get l) := by
  unfold State.takePeriod
  dsimp only
  generalize hv : (s.mapTck fun t => { t with period := P, tapOpen := false, tapHistory := [] }) = v
  generalize hw : (if s.tck.phase ≠ 0 then v.restartBoundary else v) = w
  have hd : w.dlu = s.dlu := by rw [← hw, ← hv]; split <;> simp
  have hs : w.sce = s.sce := by rw [← hw, ← hv]; split <;> simp
  have hp : w.tck.period = P := by
    rw [← hw]; split
    · rw [State.restartBoundary_period, ← hv]; rfl
    · rw [← hv]; rfl
  constructor
  · rw [State.syncLines_eq]; rw [hd]
  · intro l; rw [State.syncLines_handed, hs, hp, hd]

/-- The code of a LOADED report (R186 step 4). -/
theorem loadedCode_eq (c : Code) :
    loadedCode c = if c = .notPresent ∨ c = .busy then c else .ok := by
  cases c <;> rfl

/-- The load of a record is what the statements say of it, with the click and the changes that wait behind. -/
theorem State.loadRecord_loads (i : Nat) (s : State) (c : Csq) (hc : ∀ b, c.takeBoundary false b = c)
    (ht : c.tag = s.csq.tag) :
    s.Loads i ((({ s with csq := c } : State).loadRecord i).clickBoundary.drainExpressions.deliver) := by
  have e := State.loadRecord_eq i s c hc
  dsimp only at e
  generalize hx : ({ s with csq := c } : State).loadRecord i = x at e
  have hk : (s.tbm.cue i).tempo ≠ 0 →
      let k := (({ s with csq := c } : State).applyTempo (s.tbm.cue i).tempo).tck
      k = { s.tck with
        period := periodOf (s.tbm.cue i).tempo, phase := 0, tapOpen := false, tapHistory := []
        burstPos := k.burstPos, burst := k.burst } := by
    intro h k
    have : k = (({ s with csq := c } : State).takePeriod (periodOf (s.tbm.cue i).tempo)).tck := by
      simp only [k, State.applyTempo, if_neg h]
    rw [this]
    exact State.takePeriod_tck _ _
  have hk0 : (s.tbm.cue i).tempo = 0 →
      (({ s with csq := c } : State).applyTempo (s.tbm.cue i).tempo).tck = s.tck := by
    intro h
    simp only [State.applyTempo, if_pos h]
  dsimp only at hk
  generalize (({ s with csq := c } : State).applyTempo (s.tbm.cue i).tempo).tck = k at e hk hk0
  unfold State.Loads
  rw [ht] at e
  have hq : x.clickBoundary.drainExpressions.deliver.csq = x.csq := by simp
  have hk1 : x.clickBoundary.drainExpressions.deliver.tck = x.clickBoundary.tck := by simp
  have hd : x.clickBoundary.drainExpressions.deliver.dlu = x.dlu := by simp
  have hstg : x.clickBoundary.drainExpressions.deliver.stg = x.stg := by simp
  have hswu : x.clickBoundary.drainExpressions.deliver.swu = x.swu := by simp
  have htbm : x.clickBoundary.drainExpressions.deliver.tbm = x.tbm := by simp
  have htun : x.clickBoundary.drainExpressions.deliver.tun = x.tun := by simp
  have hsli : x.clickBoundary.drainExpressions.deliver.sli = x.sli := by simp
  have hff : x.clickBoundary.drainExpressions.deliver.cch.fifo = s.cch.fifo := by
    have h1 : ∀ u : State, u.deliver.cch.fifo = u.cch.fifo :=
      fun u => (Cch.foldl_enqueue_frame u.cch.outbox _).2.1
    rw [h1, State.drainExpressions_fifo]
    simp only [State.clickBoundary_frame, e]
    have h2 : ((s.applyTempo (s.tbm.cue i).tempo).cueSwitch (s.tbm.cue i)).1.cch.fifo = s.cch.fifo := by
      unfold State.cueSwitch
      split
      · simp
      · rw [State.baseSwitch_fifo]; simp
    split
    · exact h2
    · simpa [State.clearCuePins] using h2
  have hn : s.NoChangeWaits → x.pmn = s.pmn → x.clickBoundary.drainExpressions = x.clickBoundary := by
    intro h hp
    apply State.drainExpressions_of_none
    simpa [State.NoChangeWaits, hp] using h
  have hck : x.clickBoundary.tck = { x.tck with
      burstPos := x.clickBoundary.tck.burstPos, burst := x.clickBoundary.tck.burst } := by
    rw [State.clickBoundary_eq]; dsimp only; split <;> rfl
  generalize hy : x.clickBoundary.drainExpressions.deliver = y at *
  dsimp only
  rw [hq, hk1, hck, hd, hstg, hswu, htbm, htun, hsli]
  have hxp : x.pmn = s.pmn := by rw [← hx]; simp
  have hxs : x.sce = s.sce := by rw [← hx]; simp
  have hxt : x.tun = s.tun := by rw [← hx]; simp
  have hxl : x.sli = s.sli := by rw [← hx]; simp
  have hxb : x.tbm = s.tbm := by rw [← hx]; simp
  have hun : ∀ u : State, u.clearCuePins = { u with stg := { u.stg with
    slots := vmap (fun x => { x with cuePin := false }) u.stg.slots } } := fun _ => rfl
  have hdl : ((s.tbm.cue i).tempo ≠ 0 → x.dlu = { s.dlu with lines := x.dlu.lines } ∧
      ∀ l, x.dlu.lines.get l =
        s.sce.handedLine (periodOf (s.tbm.cue i).tempo) l (s.dlu.lines.get l)) ∧
      ((s.tbm.cue i).tempo = 0 → x.dlu = s.dlu) := by
    have : x.dlu = (s.applyTempo (s.tbm.cue i).tempo).dlu := by
      rw [e]
      dsimp only
      split <;> simp [State.armRequest_frame, hun]
    rw [this]
    unfold State.applyTempo
    constructor
    · intro h
      rw [if_neg h]
      exact State.takePeriod_dlu _ _
    · intro h
      rw [if_pos h]
  have hxq : x.csq.state = .running ∧ x.csq.current = some i ∧ x.csq.remaining = (s.tbm.cue i).length ∧
    x.csq.lookAhead = (if (s.tbm.cue i).cont = true ∧ i + 1 ≤ 1023 then some (i + 1) else none) := by
    rw [e]; exact ⟨rfl, rfl, rfl, rfl⟩
  have hxk : x.tck = k := by rw [e]
  have hfin : x.swu = ((s.applyTempo (s.tbm.cue i).tempo).cueSwitch (s.tbm.cue i)).1.swu := by
    rw [e]; dsimp only; split <;> simp [hun]
  refine ⟨hxq.1, hxq.2.1, hxq.2.2.1, hxq.2.2.2, ?_, ?_, ?_, ?_, hxb, ?_, hxt, hxl, hff, ?_, ?_, ?_⟩
  · intro h
    have := hk h
    rw [hxk, this]
    exact ⟨rfl, rfl, rfl, rfl, hdl.1 h⟩
  · intro h
    rw [hxk, hk0 h]
    exact ⟨rfl, rfl, rfl, rfl, hdl.2 h⟩
  · rw [hxk]
    by_cases h : (s.tbm.cue i).tempo = 0
    · rw [hk0 h]
    · rw [hk h]
  · rw [hxk]
    by_cases h : (s.tbm.cue i).tempo = 0
    · rw [hk0 h]
    · rw [hk h]
  · intro h
    rw [← hy, hn h hxp]
    simp [hxs, hxp]
  · exact hfin
  · rw [e]; rfl
  · intro h ho
    rw [← hy, hn h hxp, ← loadedCode_eq]
    have : x.clickBoundary.deliver.cch = x.deliver.cch := by simp [State.deliver, State.mapCch]
    rw [this, e]
    rfl

/-- The end of a list is what the statements say of it (R180, R189), with the click and the changes that wait
behind. -/
theorem State.listEnd_ends (s : State) (hout : s.cch.outbox = []) (T : Tbm) (c : Csq)
    (hc : c = { s.csq with due := none, heldOp := none } ∨ c = { s.csq with due := none })
    (r : EndReason) (j : Nat) :
    let t := ((({ s with tbm := T, csq := c } : State).listEnd r j
      s.csq.remaining).clickBoundary.drainExpressions).deliver
    t.csq = { s.csq with
      state := .idle, current := none, lookAhead := none, heldOp := none, due := none } ∧
    s.ClickedBehindEvent t ∧ t.swu = s.swu ∧ t.dlu = s.dlu ∧ t.tun = s.tun ∧ t.sli = s.sli ∧
    t.stg = { s.stg with slots := vmap (fun x => { x with cuePin := false }) s.stg.slots } ∧
    (s.NoChangeWaits → t.sce = s.sce ∧ t.pmn = s.pmn ∧ t.cch = (s.reporting
      [cueRecord s.csq.tag .ok 2 r.value s.csq.list j (t.tbm.cue j).scene s.csq.remaining
        false 0]).cch) := by
  intro t
  have ht : t = ((({ s with tbm := T, csq := c } : State).listEnd r j
      s.csq.remaining).clickBoundary.drainExpressions).deliver := rfl
  clear_value t
  have hl : ({ s with tbm := T, csq := c } : State).listEnd r j s.csq.remaining =
    { s with
      tbm := T
      csq := { c with heldOp := none, current := none, lookAhead := none, state := .idle }
      stg := { s.stg with slots := vmap (fun x => { x with cuePin := false }) s.stg.slots }
      cch := { s.cch with outbox := s.cch.outbox ++ [cueRecord c.tag .ok 2 r.value c.list j
        (T.cue j).scene s.csq.remaining false 0] } } := rfl
  rw [hl] at ht
  set x : State :=
    { s with
      tbm := T
      csq := { c with heldOp := none, current := none, lookAhead := none, state := .idle }
      stg := { s.stg with slots := vmap (fun x => { x with cuePin := false }) s.stg.slots }
      cch := { s.cch with outbox := s.cch.outbox ++ [cueRecord c.tag .ok 2 r.value c.list j
        (T.cue j).scene s.csq.remaining false 0] } } with hx
  clear_value x
  have hcq : x.csq = { s.csq with 
      state := .idle, current := none, lookAhead := none, heldOp := none, due := none } := by
    rw [hx]; rcases hc with rfl | rfl <;> rfl
  have hct : c.tag = s.csq.tag ∧ c.list = s.csq.list := by
    rcases hc with rfl | rfl <;> exact ⟨rfl, rfl⟩
  have htck : t.tck = x.clickBoundary.tck := by rw [ht]; simp
  have hxt : x.tck = s.tck := by rw [hx]
  refine ⟨?_, ?_, ?_, ?_, ?_, ?_, ?_, ?_⟩
  · rw [ht]; simpa using hcq
  · unfold State.ClickedBehindEvent
    rw [htck, State.clickBoundary_eq, hxt]
    constructor
    · intro h
      have : x.clicks = true := by rw [State.clicks_iff]; left; rw [hxt]; exact h
      simp [this]
    · intro h hw _
      have : ¬ x.clicks = true := by
        rw [State.clicks_iff, Csq.countInWaits_iff, hcq, hxt]; simp [h, hw]
      simp [this]
  · rw [ht, hx]; simp
  · rw [ht, hx]; simp
  · rw [ht, hx]; simp
  · rw [ht, hx]; simp
  · rw [ht, hx]; simp
  · intro h
    have hd : x.clickBoundary.drainExpressions = x.clickBoundary := by
      apply State.drainExpressions_of_none
      rw [(State.clickBoundary_frame x).2.2.2.2.2.2.2.1, hx]
      exact h
    rw [hd] at ht
    have htb : t.tbm = T := by rw [ht, hx]; simp
    rw [htb]
    refine ⟨by rw [ht, hx]; simp, by rw [ht, hx]; simp, ?_⟩
    have : t.cch = x.deliver.cch := by rw [ht]; simp [State.deliver, State.mapCch]
    rw [this, hx, hct.1, hct.2]
    have hq : ({ s.cch with outbox := [] } : Cch) = s.cch := by rw [← hout]
    simp [State.deliver, State.mapCch, State.reporting, hout, hq]

end Sys2Proof.Machine
end

