-- ==== Sys2Proof/Laws/Memory.lean ====
section
/-! SUPPORT. Table Memory: every operation keeps the canonical form, a word reads as last written, and
a write leaves every other word alone. -/

namespace Sys2Proof.Machine

/-! ### Canonical form -/

theorem Mem.wfFrom_mono {lo lo' : Nat} {m : Mem} (h : lo' ≤ lo) (w : m.wfFrom lo = true) :
    m.wfFrom lo' = true := by
  cases m with
  | nil => rfl
  | cons e m =>
    obtain ⟨k, v⟩ := e
    simp only [Mem.wfFrom, Bool.and_eq_true, decide_eq_true_eq] at w ⊢
    exact ⟨⟨by omega, w.1.2⟩, w.2⟩

theorem Mem.write_wfFrom {lo a : Nat} {m : Mem} (v : Word24) (h : lo ≤ a)
    (w : m.wfFrom lo = true) : (m.write a v).wfFrom lo = true := by
  induction m generalizing lo with
  | nil =>
    simp only [Mem.write]
    split <;> simp_all [Mem.wfFrom]
  | cons e m ih =>
    obtain ⟨k, u⟩ := e
    simp only [Mem.wfFrom, Bool.and_eq_true, decide_eq_true_eq] at w
    obtain ⟨⟨hk, hu⟩, wm⟩ := w
    simp only [Mem.write]
    split
    · next hlt =>
      split
      · simp_all [Mem.wfFrom]
      · simp_all [Mem.wfFrom]
    · split
      · next heq =>
        subst heq
        split
        · exact Mem.wfFrom_mono (by omega) wm
        · simp_all [Mem.wfFrom]
      · simp only [Mem.wfFrom, Bool.and_eq_true, decide_eq_true_eq]
        exact ⟨⟨hk, hu⟩, ih (by omega) wm⟩

theorem Mem.write_wf {m : Mem} (a : Nat) (v : Word24) (w : m.wf = true) : (m.write a v).wf = true :=
  Mem.write_wfFrom v (Nat.zero_le a) w

theorem Mem.writeAll_wf {m : Mem} (a : Nat) (vs : List Word24) (w : m.wf = true) :
    (m.writeAll a vs).wf = true := by
  induction vs generalizing m a with
  | nil => exact w
  | cons v vs ih => exact ih _ (Mem.write_wf a v w)

/-! ### Reads -/

/-- Below the first address of a canonical store every address reads as blank. -/
theorem Mem.read_below {lo a : Nat} {m : Mem} (w : m.wfFrom lo = true) (h : a < lo) :
    m.read a = blankWord a := by
  induction m generalizing lo with
  | nil => rfl
  | cons e m ih =>
    obtain ⟨k, v⟩ := e
    simp only [Mem.wfFrom, Bool.and_eq_true, decide_eq_true_eq] at w
    simp only [Mem.read, if_neg (show ¬ k = a by omega)]
    exact ih w.2 (by omega)

/-- A word reads as last written, and a write leaves every other word alone. -/
theorem Mem.read_write {lo : Nat} {m : Mem} (w : m.wfFrom lo = true) (a b : Nat) (v : Word24) :
    (m.write a v).read b = if a = b then v else m.read b := by
  induction m generalizing lo with
  | nil =>
    simp only [Mem.write]
    split
    · next h => by_cases hb : a = b <;> simp [Mem.read, hb]; simp [h, hb]
    · simp [Mem.read]
  | cons e m ih =>
    obtain ⟨k, u⟩ := e
    simp only [Mem.wfFrom, Bool.and_eq_true, decide_eq_true_eq] at w
    obtain ⟨⟨hk, hu⟩, wm⟩ := w
    simp only [Mem.write]
    by_cases hlt : a < k
    · rw [if_pos hlt]
      by_cases hv : v = blankWord a
      · rw [if_pos hv]
        by_cases hb : a = b
        · subst hb
          rw [if_pos rfl, hv]
          simp only [Mem.read, if_neg (show ¬ k = a by omega)]
          exact Mem.read_below wm (by omega)
        · rw [if_neg hb]
      · rw [if_neg hv]
        simp only [Mem.read]
    · rw [if_neg hlt]
      by_cases heq : a = k
      · rw [if_pos heq]
        subst heq
        by_cases hv : v = blankWord a
        · rw [if_pos hv]
          by_cases hb : a = b
          · subst hb
            rw [if_pos rfl, hv]
            exact Mem.read_below wm (by omega)
          · rw [if_neg hb]; simp only [Mem.read, if_neg hb]
        · rw [if_neg hv]
          simp only [Mem.read]
          by_cases hb : a = b <;> simp [hb]
      · rw [if_neg heq]
        simp only [Mem.read]
        by_cases hb : k = b
        · rw [if_pos hb, if_neg (by omega), if_pos hb]
        · rw [if_neg hb, ih wm, if_neg hb]

/-- The words read after a run of words is written. -/
theorem Mem.read_writeAll {m : Mem} (w : m.wf = true) (a b : Nat) (vs : List Word24) :
    (m.writeAll a vs).read b
      = if a ≤ b ∧ b < a + vs.length then vs.getD (b - a) 0 else m.read b := by
  induction vs generalizing m a with
  | nil => simp [Mem.writeAll]
  | cons v vs ih =>
    rw [Mem.writeAll, ih (Mem.write_wf a v w), Mem.read_write w]
    by_cases hab : a = b
    · subst hab
      rw [if_neg (by omega), if_pos rfl, if_pos (by simp)]
      simp
    · rw [if_neg hab]
      by_cases h : a + 1 ≤ b ∧ b < a + 1 + vs.length
      · rw [if_pos h, if_pos (by simp only [List.length_cons]; omega)]
        obtain ⟨d, hd⟩ : ∃ d, b = a + 1 + d := ⟨b - (a + 1), by omega⟩
        subst hd
        rw [show a + 1 + d - (a + 1) = d by omega, show a + 1 + d - a = d + 1 by omega]
        rfl
      · rw [if_neg h, if_neg (by simp only [List.length_cons]; omega)]

/-! ### Entries and flags -/

@[simp] theorem Tbm.setValid_mem (t : Tbm) (k : TableKind) (i : Nat) (v : Bool) :
    (t.setValid k i v).mem = t.mem := by
  unfold Tbm.setValid; split <;> (try split) <;> rfl

@[simp] theorem Tbm.setValid_gateLimit (t : Tbm) (k : TableKind) (i : Nat) (v : Bool) :
    (t.setValid k i v).gateLimit = t.gateLimit := by
  unfold Tbm.setValid; split <;> (try split) <;> rfl

@[simp] theorem Tbm.writeEntry_gateLimit (t : Tbm) (k : TableKind) (i o : Nat) (ws : List Word24) :
    (t.writeEntry k i o ws).gateLimit = t.gateLimit := rfl

theorem Tbm.writeEntry_wf {t : Tbm} (k : TableKind) (i o : Nat) (ws : List Word24)
    (w : t.mem.wf = true) : (t.writeEntry k i o ws).mem.wf = true := Mem.writeAll_wf _ _ w

theorem Tbm.loadWords_wf {t : Tbm} (k : TableKind) (i o : Nat) (ws : List Word24)
    (w : t.mem.wf = true) : (t.loadWords k i o ws).mem.wf = true := by
  rw [Tbm.loadWords, Tbm.setValid_mem]; exact Tbm.writeEntry_wf k i o ws w

theorem Tbm.erase_wf {t : Tbm} (k : TableKind) (i : Nat) (w : t.mem.wf = true) :
    (t.erase k i).mem.wf = true := by
  unfold Tbm.erase
  split <;> first
    | exact w
    | (rw [Tbm.setValid_mem]; exact w)
    | exact Tbm.writeEntry_wf _ _ _ _ w

theorem Tbm.storeScene_wf {t : Tbm} (n : Nat) (r : SceneRecord) (w : t.mem.wf = true) :
    (t.storeScene n r).mem.wf = true := by
  rw [Tbm.storeScene, Tbm.setValid_mem]; exact Tbm.writeEntry_wf _ _ _ _ w

theorem Tbm.writeResidue_wf {t : Tbm} (i n : Nat) (w : t.mem.wf = true) :
    (t.writeResidue i n).mem.wf = true := Tbm.writeEntry_wf _ _ _ _ w

/-- A word of an entry after a write into an entry. -/
theorem Tbm.writeEntry_read {t : Tbm} (w : t.mem.wf = true) (k : TableKind) (i o a : Nat)
    (ws : List Word24) :
    (t.writeEntry k i o ws).mem.read a
      = if entryAddr k i o ≤ a ∧ a < entryAddr k i o + ws.length
        then ws.getD (a - entryAddr k i o) 0 else t.mem.read a := Mem.read_writeAll w _ _ _

end Sys2Proof.Machine
end

