-- ==== Sys2Proof/Laws/Pedals.lean ====
section
/-! SUPPORT. Expression changes (R148, R154), said once: what a change leaves, that it neither reads nor
moves the list in which it waits, what a run of them leaves, and what they report; and what the removal
of an entry of the return stack leaves (R166, R194). -/

namespace Sys2Proof.Machine

variable {s : State}

/-! ### Expression changes -/

/-- The PEDAL report of a footswitch event (R155). -/
theorem State.pedalReport_eq (event number : Nat) (deferred : Bool) (s : State) :
    s.pedalReport event number deferred 0 = { s with cch := { s.cch with outbox := s.cch.outbox ++
      if s.pmn.reporting then [pedalRecord event number deferred] else [] } } := by
  unfold State.pedalReport
  cases s.pmn.reporting <;> simp [State.raise, State.mapCch, pedalRecord]

/-- An expression change the model carries out is that of the closed form (R88, R154, R155). -/
theorem State.expressionChange_eq (second : Bool) (v : Nat) (s : State) :
    s.expressionChange second v = s.changed second v := by
  unfold State.expressionChange State.changed State.pedalReport
  cases second <;> cases h : s.pmn.reporting <;>
    simp [State.mapPmn, State.raise, State.mapCch, expressionRecord, h]

/-- A map neither reads nor changes the pedal monitor (R88). -/
theorem State.applyExpMap_apart (p v i : Nat) (q : Pmn) (s : State) :
    ({ s with pmn := q } : State).applyExpMap p v i = { s.applyExpMap p v i with pmn := q } := by
  unfold State.applyExpMap
  dsimp only
  split
  · split
    · rfl
    · split <;> rfl
  · rfl

/-- The same of the four maps (R88). -/
theorem State.applyExpMaps_apart (p v : Nat) (q : Pmn) (s : State) :
    ({ s with pmn := q } : State).applyExpMaps p v = { s.applyExpMaps p v with pmn := q } := by
  unfold State.applyExpMaps forEach
  simp only [List.foldl_cons, List.foldl_nil, State.applyExpMap_apart]

/-- A change is the same whatever waits behind it. -/
theorem State.changed_events (second : Bool) (v : Nat) (es : List PedalEvent) (s : State) :
    ({ s with pmn := { s.pmn with events := es } } : State).changed second v =
      { s.changed second v with pmn := { (s.changed second v).pmn with events := es } } := by
  unfold State.changed
  dsimp only
  cases second <;> simp only [Bool.false_eq_true, if_false, if_true]
  all_goals
    rw [← State.applyExpMaps_apart]
    simp only [State.applyExpMaps_frame]

/-- A change leaves the list of confirmed events. -/
theorem State.changed_pmn_events (second : Bool) (v : Nat) (s : State) :
    (s.changed second v).pmn.events = s.pmn.events := by
  unfold State.changed
  cases second <;> simp

/-- A run of changes is taken in order, up to the first footswitch event (R148). -/
theorem takeExpressions_eq (changes : List (Bool × Nat)) (rest : List PedalEvent)
    (hr : ∀ b v es, rest ≠ .expression b v :: es) (s : State)
    (hs : s.pmn.events = changes.map (fun c => PedalEvent.expression c.1 c.2) ++ rest) :
    takeExpressions (changes.map (fun c => PedalEvent.expression c.1 c.2) ++ rest) s =
      changes.foldl (fun s c => s.changed c.1 c.2) { s with pmn := { s.pmn with events := rest } } := by
  induction changes generalizing s with
  | nil =>
    have h : takeExpressions rest s = s := by
      cases rest with
      | nil => rfl
      | cons e es =>
        cases e with
        | press f => rfl
        | release f => rfl
        | expression b v => exact absurd rfl (hr b v es)
    simp only [List.map_nil, List.nil_append] at hs
    simp only [List.map_nil, List.nil_append, List.foldl_nil, h]
    rw [← hs]
  | cons c cs ih =>
    simp only [List.map_cons, List.cons_append, takeExpressions, List.foldl_cons]
    rw [ih]
    · simp only [State.mapPmn, State.expressionChange_eq, State.changed_events]
    · simp only [State.mapPmn, State.expressionChange_eq, State.changed_pmn_events]

/-- The changes that stand first are taken, or wait for a due cue event (R148, log 17). -/
theorem State.drainExpressions_eq (changes : List (Bool × Nat)) (rest : List PedalEvent)
    (hr : ∀ b v es, rest ≠ .expression b v :: es) (s : State)
    (hs : s.pmn.events = changes.map (fun c => PedalEvent.expression c.1 c.2) ++ rest) :
    s.drainExpressions = s.thenChanges changes rest := by
  unfold State.drainExpressions State.thenChanges
  cases h : s.csq.due <;> simp
  rw [hs, takeExpressions_eq changes rest hr s hs]

/-- The report of a change (R155). -/
theorem State.changed_cch (second : Bool) (v : Nat) (s : State) :
    (s.changed second v).cch = { s.cch with
      outbox := s.cch.outbox ++
        if s.pmn.reporting then [expressionRecord (if second then 2 else 1) v] else [] } := by
  unfold State.changed
  cases second <;> simp

/-- A change leaves pedal reporting as it is. -/
theorem State.changed_reporting (second : Bool) (v : Nat) (s : State) :
    (s.changed second v).pmn.reporting = s.pmn.reporting := by
  unfold State.changed
  cases second <;> simp

/-- The reports of a run of changes, in order (R155). -/
theorem changed_foldl_cch (changes : List (Bool × Nat)) (s : State) :
    (changes.foldl (fun s c => s.changed c.1 c.2) s).cch = { s.cch with
      outbox := s.cch.outbox ++
        if s.pmn.reporting then changes.map fun c => expressionRecord (if c.1 then 2 else 1) c.2
        else [] } := by
  induction changes generalizing s with
  | nil => simp
  | cons c cs ih =>
    rw [List.foldl_cons, ih, State.changed_cch, State.changed_reporting]
    cases s.pmn.reporting <;> simp

/-! ### Entries removed from the return stack -/

/-- What an entry removed leaves of the tuner: with its last TUNER entry gone and the mode OFF, the window
restarts (R194, R201). -/
theorem State.followTuner_removed (st : List StackEntry) (e : StackEntry) (u : State)
    (hm : ∃ l r, u.swu.stack = l ++ e :: r ∧ st.map StackEntry.reason = (l ++ r).map StackEntry.reason) :
    (u.mapSwu fun w => { w with stack := st }).followTuner u.tunerState =
      { u with
        swu := { u.swu with stack := st }
        tun := if e.reason = .tuner ∧ (∀ e' ∈ st, e'.reason ≠ .tuner) ∧ u.tun.mode = .off then
            { u.tun.restartWindow with pacingDue := false }
          else u.tun } := by
  obtain ⟨l, r, h1, h2⟩ := hm
  have a1 : u.engaged = (u.swu.stack.map StackEntry.reason).any (· == .tuner) := by
    simp [State.engaged, List.any_map, Function.comp_def]
  have a2 : (u.mapSwu fun w => { w with stack := st }).engaged =
      (st.map StackEntry.reason).any (· == .tuner) := by
    simp [State.engaged, List.any_map, Function.comp_def, State.mapSwu]
  have a3 : (∀ e' ∈ st, e'.reason ≠ .tuner) ↔
      (st.map StackEntry.reason).any (· == .tuner) = false := by
    simp [List.any_eq_false]
  simp only [a3]
  have a4 : u.engaged = (e.reason == .tuner || (u.mapSwu fun w => { w with stack := st }).engaged) := by
    rw [a1, a2, h1, h2]; simp [Bool.or_left_comm]
  simp only [← a2]
  have a5 : (u.mapSwu fun w => { w with stack := st }).tun = u.tun := rfl
  unfold State.followTuner State.tunerState
  rw [a4, a5]
  cases (u.mapSwu fun w => { w with stack := st }).engaged <;> cases hr : e.reason <;>
    cases hm : u.tun.mode <;>
    simp [State.mapSwu, State.mapTun]

/-- A lower entry removed hands its saved scene to the entry above (R166). -/
theorem dropInherit_split (p : StackEntry → Bool) (es : List StackEntry) (e a : StackEntry)
    (es' : List StackEntry)
    (h : ∀ x ∈ es, p x = false) (he : p e = true) :
    dropInherit p (es ++ e :: a :: es') = es ++ { a with saved := e.saved } :: es' := by
  induction es with
  | nil => simp [dropInherit, he]
  | cons x xs ih => simp [dropInherit, h x (by simp)]; exact ih fun y hy => h y (by simp [hy])

end Sys2Proof.Machine
end

