-- ==== Sys2Proof/Laws/PerInstr.lean ====
section
/-! SUPPORT. What holds of every command as syntax, one lemma for each: no word of the table spells it,
since the table gives no row bits (log 29), and it is well formed, but that the operand of
SYNC_INTERVAL_END must be an interval that R3 allows. -/

namespace Sys2Proof.Laws.Spelling

/-- No word spells the command, and it is well formed exactly if its interval, where it has one, is. -/
def Statement (i : Instr) : Prop :=
  (∀ nbits w, decodeTableWord nbits w ≠ some i) ∧
  (i.wellFormed = true ↔ ∀ iv, i = .syncIntervalEnd iv → iv.wellFormed = true)

/-- A command that is well formed meets the statement. -/
theorem statement_of_wellFormed {i : Instr} (h : i.wellFormed = true) : Statement i :=
  ⟨fun _ _ => nofun, fun _ iv e => by subst e; exact h, fun _ => h⟩

theorem resetnAssert : Statement .resetnAssert := statement_of_wellFormed rfl

theorem powerOnReset : Statement .powerOnReset := statement_of_wellFormed rfl

theorem syncIntervalEnd (iv : SyncInterval) : Statement (.syncIntervalEnd iv) :=
  ⟨fun _ _ => nofun, fun h _ e => by cases e; exact h, fun h => h iv rfl⟩

theorem lock : Statement .lock := statement_of_wellFormed rfl

theorem linkLoss : Statement .linkLoss := statement_of_wellFormed rfl

theorem lockedFrame (o : FrameOrder) : Statement (.lockedFrame o) := statement_of_wellFormed rfl

theorem blockBoundary : Statement .blockBoundary := statement_of_wellFormed rfl

theorem assemblyTimeout : Statement .assemblyTimeout := statement_of_wellFormed rfl

theorem damagedMessage : Statement .damagedMessage := statement_of_wellFormed rfl

theorem unknownCommand : Statement .unknownCommand := statement_of_wellFormed rfl

theorem ping : Statement .ping := statement_of_wellFormed rfl

theorem status : Statement .status := statement_of_wellFormed rfl

theorem statusZeroCounters : Statement .statusZeroCounters := statement_of_wellFormed rfl

theorem meters : Statement .meters := statement_of_wellFormed rfl

theorem slotmap : Statement .slotmap := statement_of_wellFormed rfl

theorem slotmapSwitchover : Statement .slotmapSwitchover := statement_of_wellFormed rfl

theorem restartEngine : Statement .restartEngine := statement_of_wellFormed rfl

theorem restartAll : Statement .restartAll := statement_of_wellFormed rfl

theorem load : Statement .load := statement_of_wellFormed rfl

theorem read : Statement .read := statement_of_wellFormed rfl

theorem erase : Statement .erase := statement_of_wellFormed rfl

theorem commit : Statement .commit := statement_of_wellFormed rfl

theorem gateLimit : Statement .gateLimit := statement_of_wellFormed rfl

theorem arm : Statement .arm := statement_of_wellFormed rfl

theorem disarm : Statement .disarm := statement_of_wellFormed rfl

theorem loaderTake : Statement .loaderTake := statement_of_wellFormed rfl

theorem preparationComplete : Statement .preparationComplete := statement_of_wellFormed rfl

theorem switchScene : Statement .switchScene := statement_of_wellFormed rfl

theorem crossfadeStart : Statement .crossfadeStart := statement_of_wellFormed rfl

theorem reversal : Statement .reversal := statement_of_wellFormed rfl

theorem crossfadeComplete : Statement .crossfadeComplete := statement_of_wellFormed rfl

theorem setParam : Statement .setParam := statement_of_wellFormed rfl

theorem toggleStage : Statement .toggleStage := statement_of_wellFormed rfl

theorem store : Statement .store := statement_of_wellFormed rfl

theorem noiseGateHoldEnd (c : CopyRole) (k : Fin 10) : Statement (.noiseGateHoldEnd c k) := statement_of_wellFormed rfl

theorem noiseGateRampEnd (c : CopyRole) (k : Fin 10) : Statement (.noiseGateRampEnd c k) := statement_of_wellFormed rfl

theorem tapFadeEnd (l : LineNo) : Statement (.tapFadeEnd l) := statement_of_wellFormed rfl

theorem tailExpiry (l : LineNo) : Statement (.tailExpiry l) := statement_of_wellFormed rfl

theorem tailCfg : Statement .tailCfg := statement_of_wellFormed rfl

theorem footswitchPress (f : SwitchNo) : Statement (.footswitchPress f) := statement_of_wellFormed rfl

theorem holdEvent (f : SwitchNo) : Statement (.holdEvent f) := statement_of_wellFormed rfl

theorem footswitchRelease (f : SwitchNo) : Statement (.footswitchRelease f) := statement_of_wellFormed rfl

theorem pedalCfg : Statement .pedalCfg := statement_of_wellFormed rfl

theorem switchGate : Statement .switchGate := statement_of_wellFormed rfl

theorem returnPop : Statement .returnPop := statement_of_wellFormed rfl

theorem tempo : Statement .tempo := statement_of_wellFormed rfl

theorem meter : Statement .meter := statement_of_wellFormed rfl

theorem tap : Statement .tap := statement_of_wellFormed rfl

theorem click : Statement .click := statement_of_wellFormed rfl

theorem beatBoundary : Statement .beatBoundary := statement_of_wellFormed rfl

theorem clickBurstEnd : Statement .clickBurstEnd := statement_of_wellFormed rfl

theorem cueStart : Statement .cueStart := statement_of_wellFormed rfl

theorem cueListBegin : Statement .cueListBegin := statement_of_wellFormed rfl

theorem countInStart : Statement .countInStart := statement_of_wellFormed rfl

theorem countInEnd : Statement .countInEnd := statement_of_wellFormed rfl

theorem cueEnd : Statement .cueEnd := statement_of_wellFormed rfl

theorem vampReload : Statement .vampReload := statement_of_wellFormed rfl

theorem advance : Statement .advance := statement_of_wellFormed rfl

theorem skip : Statement .skip := statement_of_wellFormed rfl

theorem vamp : Statement .vamp := statement_of_wellFormed rfl

theorem hold : Statement .hold := statement_of_wellFormed rfl

theorem resume : Statement .resume := statement_of_wellFormed rfl

theorem stop : Statement .stop := statement_of_wellFormed rfl

theorem heldAdvanceCarriedOut : Statement .heldAdvanceCarriedOut := statement_of_wellFormed rfl

theorem heldSkipCarriedOut : Statement .heldSkipCarriedOut := statement_of_wellFormed rfl

theorem tunerMode : Statement .tunerMode := statement_of_wellFormed rfl

theorem tunerRef : Statement .tunerRef := statement_of_wellFormed rfl

theorem tunerSource : Statement .tunerSource := statement_of_wellFormed rfl

theorem tunerSilence : Statement .tunerSilence := statement_of_wellFormed rfl

theorem tunePacingExpiry : Statement .tunePacingExpiry := statement_of_wellFormed rfl

end Sys2Proof.Laws.Spelling
end

