-- ==== Sys2Proof/Laws/Pitch.lean ====
section
/-! SUPPORT. What the exact comparisons of the tuner decide, in real numbers (R198). -/

namespace Sys2Proof.Machine

/-- The comparison of powers compares the exponent with a binary logarithm. -/
theorem ratioAtLeast_iff (a b k : Nat) (e : Int) (ha : 0 < a) (hb : 0 < b) :
    ratioAtLeast a b k e = true ↔ (e : ℝ) ≤ k * Real.logb 2 ((a : ℝ) / b) := by
  have ha' : (0 : ℝ) < a := by exact_mod_cast ha
  have hb' : (0 : ℝ) < b := by exact_mod_cast hb
  have cast : (b ^ k * 2 ^ e.toNat ≤ a ^ k * 2 ^ (-e).toNat) ↔
      ((b : ℝ) ^ k * 2 ^ e.toNat ≤ (a : ℝ) ^ k * 2 ^ (-e).toNat) := by exact_mod_cast Iff.rfl
  have quotient : ((b : ℝ) ^ k * 2 ^ e.toNat ≤ (a : ℝ) ^ k * 2 ^ (-e).toNat) ↔
      (2 : ℝ) ^ e ≤ ((a : ℝ) / b) ^ k := by
    rw [div_pow, le_div_iff₀ (by positivity)]
    rcases le_total 0 e with h | h
    · obtain ⟨n, rfl⟩ := Int.eq_ofNat_of_zero_le h
      simp [mul_comm]
    · obtain ⟨n, hn⟩ := Int.eq_ofNat_of_zero_le (by omega : 0 ≤ -e)
      obtain rfl : e = -n := by omega
      simp only [Int.toNat_neg_natCast, pow_zero, mul_one, neg_neg, Int.toNat_natCast, zpow_neg,
        zpow_natCast]
      rw [inv_mul_le_iff₀ (by positivity), mul_comm]
  unfold ratioAtLeast
  rw [decide_eq_true_iff, cast, quotient, ← Real.logb_pow,
    Real.le_logb_iff_rpow_le (by norm_num) (by positivity), Real.rpow_intCast]

/-- The search gives the last value up to which its test holds. -/
theorem searchDown_eq (p : Int → Bool) (lo n : Int) (k : Nat) (h1 : lo ≤ n) (h2 : n ≤ lo + k)
    (h : ∀ m, lo < m → m ≤ lo + k → (p m = true ↔ m ≤ n)) : searchDown p lo k = n := by
  induction k with
  | zero => unfold searchDown; omega
  | succ k ih =>
    unfold searchDown
    by_cases hn : lo + (k + 1 : Nat) ≤ n
    · rw [if_pos ((h _ (by omega) (by omega)).mpr hn)]; omega
    · rw [if_neg (by rw [h _ (by omega) (by omega)]; exact hn)]
      apply ih (by push_cast at *; omega)
      intro m a b
      exact h m a (by push_cast at *; omega)

end Sys2Proof.Machine
end

