-- ==== Sys2Proof/Laws/Scenes.lean ====
section
/-! SUPPORT. Scene records and the crossfades between scenes: what COMMIT reads of an entry stage by
stage (R47, R61), what a working copy is made of (R68, R69), what a reversal and a completion leave of
the delay lines and report (R142, R143), what a change of the live scene leaves of the tuner (R201), and
the search of the staging slots. -/

namespace Sys2Proof.Machine

variable {s : State}

/-! ### The stages of a SCENE entry (R47, R48) -/

/-- The parameter words of the kind a code names (R48). -/
def kindWords (c : Nat) : Nat := [0, 5, 5, 3, 26, 3, 5, 10, 3, 1].getD c 0

/-- A code that names no kind lies outside 1 to 9 (R48). -/
theorem stageKindOf_none {c : Nat} (h : stageKindOf c = none) : ¬ (1 ≤ c ∧ c ≤ 9) := by
  rintro ⟨h1, h9⟩
  interval_cases c <;> simp [stageKindOf] at h

/-- A code that names a kind is the kind's code, and the kind has its words (R48). -/
theorem stageKindOf_some {c : Nat} {k : StageKind} (h : stageKindOf c = some k) :
    1 ≤ c ∧ c ≤ 9 ∧ k.code = c ∧ k.count = kindWords c := by
  unfold stageKindOf at h
  split at h <;> cases h <;> simp [StageKind.code, StageKind.count, kindWords]

/-- Stage `k` of an entry has the structure of R47. -/
def StageStructured (word : Nat → Word24) (k : Nat) : Prop :=
  let p := stagePlace word k
  let c := bits 23 16 (word p)
  1 ≤ c ∧ c ≤ 9 ∧ bits 7 0 (word p) = kindWords c ∧ p + kindWords c ≤ 273

/-- Stage `k` of an entry as its words give it (R47). -/
def stageAt (word : Nat → Word24) (k : Nat) : StageRecord :=
  let p := stagePlace word k
  let c := bits 23 16 (word p)
  { kind := (stageKindOf c).getD .gate, enabled := bit 8 (word p)
    params := (List.range (kindWords c)).map fun i => word (p + 1 + i) }

/-- Stages that have the structure are read as their words give them (R47). -/
theorem parseStages_some (word : Nat → Word24) (n k0 : Nat)
    (h : ∀ j, j < n → StageStructured word (k0 + j)) :
    parseStages word (stagePlace word k0) n =
      some ((List.range n).map fun j => stageAt word (k0 + j)) := by
  induction n generalizing k0 with
  | zero => simp [parseStages]
  | succ n ih =>
    have h0 := h 0 (by omega)
    have hn := ih (k0 + 1) fun j hj => by
      have := h (j + 1) (by omega)
      rwa [show k0 + 1 + j = k0 + (j + 1) by omega]
    obtain ⟨h1, h9, hb, hp⟩ := h0
    rw [Nat.add_zero] at h1 h9 hb hp
    rw [parseStages]
    cases hk : stageKindOf (bits 23 16 (word (stagePlace word k0))) with
    | none => exact absurd ⟨h1, h9⟩ (stageKindOf_none hk)
    | some k =>
      obtain ⟨-, -, -, hc⟩ := stageKindOf_some hk
      have e : stagePlace word k0 + 1 + k.count = stagePlace word (k0 + 1) := by
        rw [stagePlace, hb, hc]
      simp only [hb, hc, ne_eq, not_true_eq_false, false_or, Nat.not_lt.2 hp, if_false]
      rw [← hc, e, hn, List.range_succ_eq_map, List.map_cons, List.map_map]
      simp [stageAt, hk, hc, Function.comp_def, Nat.add_assoc, Nat.add_comm 1]

/-- A stage without the structure spoils the record (R47, R61). -/
theorem parseStages_none (word : Nat → Word24) (n k0 j : Nat) (hj : j < n)
    (h : ¬ StageStructured word (k0 + j)) :
    parseStages word (stagePlace word k0) n = none := by
  induction n generalizing k0 j with
  | zero => omega
  | succ n ih =>
    rw [parseStages]
    cases hk : stageKindOf (bits 23 16 (word (stagePlace word k0))) with
    | none => rfl
    | some k =>
      obtain ⟨h1, h9, -, hc⟩ := stageKindOf_some hk
      by_cases hb : bits 7 0 (word (stagePlace word k0)) ≠ k.count ∨
          273 < stagePlace word k0 + k.count
      · simp [hb]
      · simp only [hb, if_false]
        push Not at hb
        cases j with
        | zero => exact absurd ⟨h1, h9, hc ▸ hb.1, hc ▸ hb.2⟩ h
        | succ j =>
          have e : stagePlace word k0 + 1 + k.count = stagePlace word (k0 + 1) := by
            rw [stagePlace, hb.1]
          rw [e, ih (k0 + 1) j (by omega) (by rwa [show k0 + 1 + j = k0 + (j + 1) by omega])]

/-- The kind of a stage has the code of its header (R48). -/
theorem stageAt_kind_code (word : Nat → Word24) (k : Nat) (h : StageStructured word k) :
    (stageAt word k).kind.code = bits 23 16 (word (stagePlace word k)) := by
  obtain ⟨h1, h9, -⟩ := h
  simp only [stageAt]
  generalize bits 23 16 (word (stagePlace word k)) = c at *
  interval_cases c <;> simp [stageKindOf, StageKind.code]

/-- A parameter word of a stage (R47). -/
theorem stageAt_params (word : Nat → Word24) (k i : Nat)
    (h : i < kindWords (bits 23 16 (word (stagePlace word k)))) :
    (stageAt word k).params.getD i 0 = word (stagePlace word k + 1 + i) := by
  simp [stageAt, List.getD, h]

/-! ### The limits of R61 -/

/-- At most one element has a property just when no two have it. -/
theorem filter_le_one {α} (p : α → Bool) (l : List α) :
    (l.filter p).length ≤ 1 ↔ l.Pairwise fun a b => p a = true → p b = false := by
  induction l with
  | nil => simp
  | cons x l ih =>
    rw [List.pairwise_cons, ← ih, List.filter_cons]
    cases hx : p x
    · simp
    · simp only [if_true, List.length_cons, true_implies]
      have e : (l.filter p).length + 1 ≤ 1 ↔ ∀ a ∈ l, p a = false := by
        rw [show (l.filter p).length + 1 ≤ 1 ↔ (l.filter p).length = 0 by omega,
          List.length_eq_zero_iff, List.filter_eq_nil_iff]
        simp
      rw [e]
      exact ⟨fun h => ⟨h, by rw [List.filter_eq_nil_iff.2 (by simpa using h)]; simp⟩, (·.1)⟩

/-- `allDistinct` says that no element occurs twice. -/
theorem allDistinct_iff (l : List Nat) : allDistinct l = true ↔ l.Nodup := by
  induction l with
  | nil => simp [allDistinct]
  | cons x l ih => simp [allDistinct, ih]

/-- What holds of any two stages of a record holds of their places, and back. -/
theorem pairwise_stageAt (R : StageRecord → StageRecord → Prop) (word : Nat → Word24) (n : Nat) :
    ((List.range n).map (stageAt word)).Pairwise R ↔
      ∀ j k, j < k → k < n → R (stageAt word j) (stageAt word k) := by
  rw [List.pairwise_map, List.pairwise_iff_getElem]
  simp only [List.length_range, List.getElem_range]
  exact ⟨fun h j k hj hk => h j k (by omega) hk hj, fun h j k _ hk hj => h j k hj hk⟩

/-- The line of a stage by the code of its kind (R49). -/
theorem lineRef_eq (k : StageKind) (ps : List Word24) :
    lineRef k ps = if k.code = 7 then some (min 3 (ps.getD 0 0).toNat) else none := by
  cases k <;> simp [lineRef, StageKind.code, clampRef]

/-- The cost of a stage by the code of its kind (R48). -/
theorem StageRecord.cost_eq (r : StageRecord) : r.cost = if r.kind.code = 5 then (r.params.getD 1 0).toNat / 4
   else [0, 8, 10, 20, 60, 0, 24, 6, 4, 2].getD r.kind.code 0 := by
  unfold StageRecord.cost; cases r.kind <;> simp [StageKind.code]

/-- The eight tap counts (R61). -/
theorem tapCounts_iff (n : Nat) : (n % 128 = 0 ∧ 128 ≤ n ∧ n ≤ 1024) ↔
    n ∈ [128, 256, 384, 512, 640, 768, 896, 1024] := by
  simp; omega

/-! ### The working copy and the length of a crossfade (R68, R69, R140) -/

/-- The parameters made from the words of a stage, each by its index (R68). -/
theorem newParams_eq (k : StageKind) (i : Nat) (ws : List Word24) :
    newParams k i ws = ws.mapIdx fun j w =>
      { set := w, run := paramValue k (i + j) w, change := none, fresh := false } := by
  induction ws generalizing i with
  | nil => rfl
  | cons w ws ih =>
    rw [newParams, ih, List.mapIdx_cons]
    congr 1
    congr 1
    funext j w
    rw [Nat.add_right_comm, Nat.add_assoc]

/-- Only the coefficients of EQ and AMP stages are signed (R49, R72, R86). -/
theorem paramValue_eq (k : StageKind) (i : Nat) (w : Word24) :
    paramValue k i w =
      if k = .eq ∨ (k = .amp ∧ (i < 5 ∨ (10 ≤ i ∧ i < 25))) then w.toInt else w.toNat := by
  unfold paramValue paramSigned
  cases k <;> simp

/-- The working copy the model makes is that of the closed form (R68, R69). -/
theorem Copy.ofImage_eq (im : Image) : Copy.ofImage im = Copy.fresh im := by
  unfold Copy.ofImage Copy.fresh
  congr 1
  congr 1
  funext r
  unfold Stage.ofRecord
  rw [newParams_eq]
  simp only [Nat.zero_add, paramValue_eq, enableTarget, Config.unity]
  cases r.kind <;> rfl

/-- The eight lengths of the fade field (R140). -/
theorem Config.fadeLength_eq (c : Nat) :
    Config.fadeLength c = [0, 64, 128, 256, 512, 1024, 2048].getD c 4096 := by
  unfold Config.fadeLength
  split <;> try rfl
  simp only [imp_false] at *
  obtain ⟨n, rfl⟩ : ∃ n, c = n + 7 := ⟨c - 7, by omega⟩
  simp

/-! ### Reversal and completion (R109, R115, R116, R142, R143) -/

/-- A completed crossfade releases the lines, and the governing stages hand their values on (R109, R116). -/
theorem State.completeCrossfade_lines {x : Crossfade} (loss : Bool) (h : s.swu.crossfade = some x)
    (l : LineNo) : (s.completeCrossfade loss).dlu.lines.get l =
      ({ s.sce with fading := none } : Sce).handedLine s.tck.period l
        (Line.release loss (s.dlu.lines.get l)) := by
  unfold State.completeCrossfade
  rw [h]
  dsimp only
  have hd : ∀ v : State, v.dlu = s.dlu → v.sce = s.sce → v.tck = s.tck →
      ((((v.mapSce fun e => { e with fading := none }).mapDlu fun d =>
        { d with lines := vmap (Line.release loss) d.lines }).mapSwu fun u =>
        { u with crossfade := none }).syncLines).dlu.lines.get l =
      ({ s.sce with fading := none } : Sce).handedLine s.tck.period l
        (Line.release loss (s.dlu.lines.get l)) := by
    intro v hv hs ht
    rw [State.syncLines_handed]
    simp [State.mapSce, State.mapDlu, State.mapSwu, hv, hs, ht]
  cases s.stg.fadingSlot <;> cases loss <;> cases x.reversal <;>
    simp [State.switchReport, State.raise, State.mapCch, State.setSlot, State.mapStg,
      -State.syncLines_frame] <;>
    exact hd _ rfl rfl rfl

/-- A completed crossfade reports OK, and a reversal request still held SUPERSEDED behind (R144, log 11). -/
theorem State.completeCrossfade_cch {x : Crossfade} (h : s.swu.crossfade = some x) :
    (s.completeCrossfade false).cch = { s.cch with outbox := s.cch.outbox ++ (
      switchRecord x.served .ok s.fadingScene s.liveScene x.reversed (s.sce.fading.any Copy.edited) ::
        x.reversal.toList.map fun r => switchRecord r .superseded s.liveScene r.target false false) } := by
  unfold State.completeCrossfade
  rw [h]
  dsimp only
  cases s.stg.fadingSlot <;> cases x.reversal <;>
    simp [State.switchReport, State.raise, State.mapCch, State.setSlot, State.mapStg,
      State.mapSce, State.mapDlu, State.mapSwu, switchRecord]

/-- A reversal exchanges the owners, and the governing stages hand their values on (R109, R115). -/
theorem State.takeReversal_lines {x : Crossfade} {r : Request} (h : s.swu.crossfade = some x)
    (hr : x.reversal = some r) (l : LineNo) : (s.takeReversal).dlu.lines.get l =
      ({ s.sce with live := s.sce.fading, fading := s.sce.live } : Sce).handedLine s.tck.period l
        (Line.swapOwners (s.dlu.lines.get l)) := by
  unfold State.takeReversal
  rw [h]; dsimp only; rw [hr]; dsimp only
  simp only [State.switchReport, State.raise, State.mapCch, State.tunerSceneChange_frame]
  rw [State.syncLines_handed]
  simp [State.mapSce, State.mapDlu, State.mapSwu, State.mapStg]

/-- A reversal reports the served request SUPERSEDED (R144, log 12). -/
theorem State.takeReversal_cch {x : Crossfade} {r} (h : s.swu.crossfade = some x) (hr : x.reversal = some r) :
    (s.takeReversal).cch = { s.cch with outbox := s.cch.outbox ++
      [switchRecord x.served .superseded s.destination x.served.target false false] } := by
  unfold State.takeReversal
  rw [h]; dsimp only; rw [hr]; dsimp only
  simp [State.switchReport, State.raise, State.mapCch, State.mapStg, State.mapSce,
    State.mapDlu, State.mapSwu, switchRecord]

/-! ### The tuner at a change of the live scene (R201) -/

/-- A change of the live scene restarts the window of a tuner that follows it and is not OFF (R201). -/
theorem State.tunerSceneChange_tun (s : State) : s.tunerSceneChange.tun =
    if s.tun.source = .follow ∧ (s.engaged = true ∨ s.tun.mode = .background) then s.tun.restartWindow
    else s.tun := by
  have h : s.tunerState ≠ .off ↔ s.engaged = true ∨ s.tun.mode = .background := by
    unfold State.tunerState
    cases s.engaged <;> cases s.tun.mode <;> simp
  unfold State.tunerSceneChange
  simp only [← h]
  split <;> simp_all [State.mapTun]

/-- The same at a crossfade start (R201). -/
theorem State.startCrossfade_tun {p : Pending} (h : s.swu.pending = some p) : s.startCrossfade.tun =
    if s.tun.source = .follow ∧ (s.engaged = true ∨ s.tun.mode = .background) then s.tun.restartWindow
    else s.tun := by
  unfold State.startCrossfade
  rw [h]
  dsimp only
  have key : ∀ v : State, v.tun = s.tun → v.swu.stack = s.swu.stack →
      (v.syncLines.tunerSceneChange).tun =
        if s.tun.source = .follow ∧ (s.engaged = true ∨ s.tun.mode = .background) then
          s.tun.restartWindow
        else s.tun := by
    intro v h1 h2
    rw [State.tunerSceneChange_tun]
    simp only [State.engaged, State.syncLines_frame, h1, h2]
    rfl
  have done : ∀ (b : Prop) [Decidable b] (v : State),
      (if b then v.completeCrossfade false else v).tun = v.tun := by
    intro b _ v; split
    · simp
    · rfl
  rw [done]
  apply key
  · simp only [State.mapSwu, State.mapSce, State.bindLines_frame]
    split <;> split <;> simp
  · simp only [State.mapSwu, State.mapSce, State.bindLines_frame]
    split <;> split <;> simp

/-- The same at a reversal (R201). -/
theorem State.takeReversal_tun {x : Crossfade} {r : Request} (h : s.swu.crossfade = some x)
    (hr : x.reversal = some r) : s.takeReversal.tun =
    if s.tun.source = .follow ∧ (s.engaged = true ∨ s.tun.mode = .background) then s.tun.restartWindow
    else s.tun := by
  unfold State.takeReversal
  rw [h]; dsimp only; rw [hr]; dsimp only
  simp only [State.switchReport, State.raise, State.mapCch]
  rw [State.tunerSceneChange_tun]
  simp [State.engaged, State.mapSce, State.mapDlu, State.mapSwu, State.mapStg]

/-! ### Slots found (R123, R127) -/

/-- A slot is eligible when it is QUEUED and older than the last frame (R127). -/
theorem StgSlot.eligible_iff (t : StgSlot) : t.eligible = true ↔ t.state = .queued ∧ t.fresh = false := by
  simp [StgSlot.eligible]

/-- A slot with a property is found. -/
theorem Stg.find_isSome {g : Stg} {p : StgSlot → Bool} (j : SlotNo) (h : p (g.slots.get j) = true) :
    ∃ i, g.find p = some i := by
  unfold Stg.find
  rw [← Option.isSome_iff_exists, List.find?_isSome]
  exact ⟨j, by fin_cases j <;> decide, h⟩

/-- None is found where no slot has it. -/
theorem Stg.find_none {g : Stg} {p : StgSlot → Bool} (h : ∀ j, p (g.slots.get j) = false) :
    g.find p = none := by
  unfold Stg.find; rw [List.find?_eq_none]; intro j _; simp [h j]

end Sys2Proof.Machine
end

