-- ==== Sys2Proof/Laws/Starts.lean ====
section
/-! SUPPORT. The start and the completion of a crossfade, part by part: what a start makes of the slots,
the lines and the record before the values are handed on (R140), and what a completion leaves of the
slots, the copies and the record (R143). -/

namespace Sys2Proof.Machine

variable {s : State}

/-- A search of the slots sees only what its test reads. -/
theorem Stg.find_congr {g g' : Stg} {p : StgSlot → Bool}
    (h : ∀ i, p (g'.slots.get i) = p (g.slots.get i)) : g'.find p = g.find p := by
  unfold Stg.find; congr 1; funext i; exact h i

/-- The lines handed on are all that changes of DLU (R85). -/
theorem State.syncLines_dlu (s : State) : ∃ ls, s.syncLines.dlu = { s.dlu with lines := ls } :=
  ⟨s.syncLines.dlu.lines, by rw [State.syncLines_eq]⟩

/-! ### The parts of a start (R113, R140) -/

/-- Every line is bound by itself (R113). -/
theorem State.bindLines_get (c : Option Copy) (a b : Option SceneNo) (s : State) (k : LineNo) :
    (s.bindLines c a b).dlu.lines.get k = Line.bind (incomingOn c a k) b (s.dlu.lines.get k) := by
  unfold State.bindLines forEach four
  simp only [List.foldl_cons, List.foldl_nil]
  fin_cases k <;> simp [State.setLine, State.mapDlu, upd_get]

/-- A binding changes the lines alone. -/
theorem State.bindLines_eq (c : Option Copy) (a b : Option SceneNo) (s : State) :
    s.bindLines c a b = { s with dlu := { s.dlu with lines := (s.bindLines c a b).dlu.lines } } := rfl

/-- Clearing a demand changes the slots alone. -/
theorem State.clearDemand_eq (n : Option SceneNo) (s : State) :
    s.clearDemand n = { s with stg := { s.stg with slots := (s.clearDemand n).stg.slots } } := by
  unfold State.clearDemand; split <;> rfl

/-- The slot that holds the scene loses its demand. -/
theorem State.clearDemand_get (n : Option SceneNo) (s : State) (j : SlotNo) :
    (s.clearDemand n).stg.slots.get j =
      if (n.bind fun n => s.stg.holding n) = some j then { s.stg.slots.get j with demanded := false }
      else s.stg.slots.get j := by
  unfold State.clearDemand
  split
  · next i h =>
    by_cases e : i = j
    · subst e; simp [h, State.setSlot, State.mapStg]
    · simp [h, State.setSlot, State.mapStg, upd_get, e]
  · next h => simp [h]

/-- The slot states of a start: the old one FADING, the new one LIVE and out of the ready order (R140). -/
def State.startSlots (live slot : Option SlotNo) (v : State) : State :=
  let s := match live with
    | none => v
    | some i => v.setSlot i fun t => { t with state := .fading }
  match slot with
  | none => s
  | some i =>
    (s.setSlot i fun t => { t with state := .live, pinned := false }).mapStg fun g =>
      { g with readyOrder := g.readyOrder.filter (· != i) }

/-- One slot behind a start whose target stands in `slot` (R140). -/
def Stg.startedSlot (g : Stg) (slot : Option SlotNo) (j : SlotNo) : StgSlot :=
  if slot = some j then { g.slots.get j with state := .live, pinned := false, demanded := false }
  else if g.liveSlot = some j then { g.slots.get j with state := .fading }
  else g.slots.get j

/-- What a start makes, slot by slot and line by line, before the values are handed on and a cut completes
(R140). -/
theorem State.startCrossfade_eq (p : Pending) (slot : Option SlotNo) (image : Option Image)
    (h : s.swu.pending = some p) (hslot : (p.req.target.bind fun n => s.stg.holding n) = slot)
    (him : (slot.bind fun i => (s.stg.slots.get i).image) = image)
    (hready : ∀ i, slot = some i → (s.stg.slots.get i).state = .ready) :
    ∃ u : State, (∃ V L, (∀ j, V.get j = s.stg.startedSlot slot j) ∧
        (∀ k, L.get k = Line.bind (incomingOn (image.map Copy.ofImage) p.req.target k) s.liveScene
          (s.dlu.lines.get k)) ∧
        u = { s with
          stg := { s.stg with
            slots := V, readyOrder := s.stg.readyOrder.filter (fun j => slot ≠ some j) }
          sce := { s.sce with live := image.map Copy.ofImage, fading := s.sce.live }
          dlu := { s.dlu with lines := L }
          swu := { s.swu with
            pending := none
            crossfade := some { length := crossfadeLength p.req image, elapsed := 0, served := p.req
                                reversed := false, reversal := none, reversalFresh := false } } }) ∧
      s.startCrossfade =
        if crossfadeLength p.req image = 0 then
          u.syncLines.tunerSceneChange.completeCrossfade false
        else u.syncLines.tunerSceneChange := by
  have hne (a b : SlotNo) : (a != b) = !decide (a = b) := rfl
  unfold State.startCrossfade
  rw [h]
  dsimp only
  generalize hv : (s.mapSwu fun u => { u with pending := none }).clearDemand p.req.target = v
  have hve : v = { s with
      stg := { s.stg with slots := v.stg.slots }, swu := { s.swu with pending := none } } := by
    rw [← hv, State.clearDemand_eq]; rfl
  have hvg : ∀ j, v.stg.slots.get j =
      if slot = some j then { s.stg.slots.get j with demanded := false } else s.stg.slots.get j := by
    intro j; rw [← hv, State.clearDemand_get]
    change (if (p.req.target.bind fun n => s.stg.holding n) = some j then _ else _) = _
    rw [hslot]; rfl
  have hvl : v.stg.liveSlot = s.stg.liveSlot :=
    Stg.find_congr fun i => by rw [hvg]; split <;> rfl
  have hvh : ∀ n, v.stg.holding n = s.stg.holding n := fun n =>
    Stg.find_congr fun i => by rw [hvg]; split <;> rfl
  have hvs : v.liveScene = s.liveScene := by
    unfold State.liveScene; rw [hvl]; congr 1; funext i; rw [hvg]; split <;> rfl
  have hvi : (slot.bind fun i => (v.stg.slots.get i).image) = image := by
    rw [← him]; congr 1; funext i; rw [hvg]; split <;> rfl
  simp only [hvh, hslot, hvl, hvs]
  rw [hvi]
  let b := ((v.startSlots s.stg.liveSlot slot).mapSce fun e =>
    { e with fading := e.live, live := image.map Copy.ofImage }).bindLines
      (image.map Copy.ofImage) p.req.target s.liveScene
  refine ⟨b.mapSwu fun u =>
      { u with crossfade := some { length := crossfadeLength p.req image, elapsed := 0, served := p.req
                                   reversed := false, reversal := none, reversalFresh := false } },
    ⟨(v.startSlots s.stg.liveSlot slot).stg.slots, b.dlu.lines, ?_, ?_, ?_⟩, rfl⟩
  · intro j
    have hlive : ∀ i, s.stg.liveSlot = some i → (s.stg.slots.get i).state = .live := by
      intro i hi; simpa using List.find?_some hi
    unfold Stg.startedSlot State.startSlots
    cases hl : s.stg.liveSlot with
    | none =>
      cases slot with
      | none => simp [hvg]
      | some i =>
        by_cases e : i = j
        · subst e; simp [State.setSlot, State.mapStg, hvg]
        · simp [State.setSlot, State.mapStg, hvg, upd_get, e]
    | some k =>
      cases slot with
      | none =>
        by_cases e : k = j
        · subst e; simp [State.setSlot, State.mapStg, hvg]
        · simp [State.setSlot, State.mapStg, hvg, upd_get, e]
      | some i =>
        have hik : k ≠ i := by
          rintro rfl; have := hlive k hl; rw [hready k rfl] at this; cases this
        by_cases e : i = j
        · subst e; simp [State.setSlot, State.mapStg, hvg, upd_get, hik]
        · by_cases e' : k = j
          · subst e'; simp [State.setSlot, State.mapStg, hvg, upd_get, e]
          · simp [State.setSlot, State.mapStg, hvg, upd_get, e, e']
  · intro k
    simp only [b]
    rw [State.bindLines_get]
    congr 1
    rw [hve]; unfold State.startSlots
    cases s.stg.liveSlot <;> cases slot <;> rfl
  · simp only [b]
    rw [hve, State.bindLines_eq]
    unfold State.startSlots
    cases s.stg.liveSlot <;> cases slot <;>
      simp [State.mapSwu, State.mapSce, State.setSlot, State.mapStg, eq_comm, hne]

/-! ### The parts of a completion (R143) -/

/-- The slot that was FADING is READY, at the front of the ready order (R129, R143). -/
theorem State.completeCrossfade_stg {x : Crossfade} (h : s.swu.crossfade = some x) (b : Bool) :
    (s.completeCrossfade b).stg = match s.stg.fadingSlot with
      | none => s.stg
      | some i => { s.stg with slots := upd s.stg.slots i { s.stg.slots.get i with state := .ready }
                               readyOrder := i :: s.stg.readyOrder.filter (· != i) } := by
  unfold State.completeCrossfade
  rw [h]; dsimp only
  cases s.stg.fadingSlot <;> cases b <;> cases x.reversal <;>
    simp [State.switchReport, State.raise, State.mapCch, State.setSlot, State.mapStg, State.mapSce,
      State.mapDlu, State.mapSwu]

/-- The fading copy and the record end. -/
theorem State.completeCrossfade_sce {x : Crossfade} (h : s.swu.crossfade = some x) (b : Bool) :
    (s.completeCrossfade b).sce = { s.sce with fading := none } ∧
      (s.completeCrossfade b).swu = { s.swu with crossfade := none } := by
  unfold State.completeCrossfade
  rw [h]; dsimp only
  cases s.stg.fadingSlot <;> cases b <;> cases x.reversal <;>
    simp [State.switchReport, State.raise, State.mapCch, State.setSlot, State.mapStg, State.mapSce,
      State.mapDlu, State.mapSwu]

/-- The lines are all that changes of DLU. -/
theorem State.completeCrossfade_dlu {x : Crossfade} (h : s.swu.crossfade = some x) (b : Bool) :
    ∃ ls, (s.completeCrossfade b).dlu = { s.dlu with lines := ls } := by
  have hd : ∀ v : State, v.dlu = s.dlu → ∃ ls,
      (((v.mapSce fun e => { e with fading := none }).mapDlu fun d =>
        { d with lines := vmap (Line.release b) d.lines }).mapSwu fun u =>
        { u with crossfade := none }).syncLines.dlu = { s.dlu with lines := ls } := by
    intro v hv
    obtain ⟨ls, hls⟩ := State.syncLines_dlu (((v.mapSce fun e => { e with fading := none }).mapDlu
      fun d => { d with lines := vmap (Line.release b) d.lines }).mapSwu fun u =>
        { u with crossfade := none })
    exact ⟨ls, hls.trans (by simp [State.mapSce, State.mapDlu, State.mapSwu, hv])⟩
  unfold State.completeCrossfade
  rw [h]; dsimp only
  cases s.stg.fadingSlot <;> cases b <;> cases x.reversal <;>
    simp [State.switchReport, State.raise, State.mapCch, State.setSlot, State.mapStg,
      -State.syncLines_frame] <;>
    exact hd _ rfl

end Sys2Proof.Machine
end

