-- ==== Sys2Proof/Laws/Withdraw.lean ====
section
/-! SUPPORT. What a write withdraws (R64): `State.invalidate` in the terms of the statements. -/

namespace Sys2Proof.Machine

/-- The reports about a staged copy withdrawn (R64, R131, R144). -/
def State.withdrawReports (s : State) (i : SlotNo) : List Record :=
  let slot := s.stg.slots.get i
  (if slot.state = .queued ∨ slot.state = .preparing then [armRecord i slot .invalidated] else []) ++
    ((s.swu.pending.filter fun p => slot.scene.isSome && p.req.target == slot.scene).toList.map fun p =>
      switchRecord p.req .invalidated s.destination slot.scene false false)

/-- The slot and the pending switch of a staged copy withdrawn, without the reports. -/
def State.withdrawSlot (s : State) (i : SlotNo) (u : State) : State :=
  let slot := s.stg.slots.get i
  let waiting := s.swu.pending.filter fun p => slot.scene.isSome && p.req.target == slot.scene
  { u with
    stg := { u.stg with
      slots := upd u.stg.slots i StgSlot.vacant
      armQueue := u.stg.armQueue.filter (· ≠ i)
      readyOrder := u.stg.readyOrder.filter (· ≠ i) }
    swu := if waiting.isSome then { u.swu with pending := none } else u.swu }

theorem State.withdrawing_eq (s : State) (i : SlotNo) (u : State) :
    s.withdrawing i u = (s.withdrawSlot i u).reporting (s.withdrawReports i) := rfl

theorem State.withdrawSlot_reporting (s : State) (i : SlotNo) (rs : List Record) (u : State) :
    s.withdrawSlot i (u.reporting rs) = (s.withdrawSlot i u).reporting rs := rfl

theorem State.reporting_append (rs qs : List Record) (u : State) :
    u.reporting (rs ++ qs) = (u.reporting rs).reporting qs := by
  simp [State.reporting, List.foldl_append]

/-- Staged copies withdrawn, the slots first and the reports in order behind them. -/
theorem State.withdrawing_foldl (s : State) (is : List SlotNo) (u : State) :
    is.foldl (fun u i => s.withdrawing i u) u =
      (is.foldl (fun u i => s.withdrawSlot i u) u).reporting (is.flatMap s.withdrawReports) := by
  induction is using List.reverseRecOn generalizing u with
  | nil => rfl
  | append_singleton is i ih =>
    rw [List.foldl_append, List.foldl_append, ih, List.flatMap_append]
    simp only [List.foldl_cons, List.foldl_nil, List.flatMap_cons, List.flatMap_nil, List.append_nil]
    rw [State.withdrawing_eq, State.withdrawSlot_reporting, State.reporting_append]

/-- No slot but `i` holds the scene of slot `i`. -/
def Stg.alone (g : Stg) (i : SlotNo) : Prop :=
  ∀ j n, (g.slots.get i).scene = some n → (g.slots.get j).scene = some n → j = i

theorem Stg.holding_emptied {g : Stg} {i : SlotNo} (h : g.alone i) (n : SceneNo)
    (hn : (g.slots.get i).scene = some n) (q r : List SlotNo) (w : Bool) :
    ({ slots := upd g.slots i StgSlot.vacant, armQueue := q, readyOrder := r, loaderWaits := w } :
      Stg).holding n
      = none := by
  simp only [Stg.holding, Stg.find, List.find?_eq_none, beq_iff_eq, upd_get]
  intro j _ hj
  split at hj
  · simp [StgSlot.vacant] at hj
  · next hij => exact hij (h j n hn hj).symm

/-- The pending switch, if there is one, ends with its report, and the slot that holds its target loses the
demand (R138). -/
theorem State.removePending_eq (v : State) (c : Code) (frm : Option SceneNo) :
    v.removePending c frm =
      { v with
        swu := { v.swu with pending := none }
        stg :=
          match v.swu.pending.bind fun p => p.req.target.bind v.stg.holding with
          | none => v.stg
          | some i =>
            let slot := v.stg.slots.get i
            { v.stg with slots := upd v.stg.slots i { slot with demanded := false } }
        cch := { v.cch with
          outbox := v.cch.outbox ++
            (v.swu.pending.toList.map fun p =>
              switchRecord p.req c frm p.req.target false false) } } := by
  obtain ⟨_, _, _, stg, ⟨pending, _, _⟩, _, _, _, _, _, _, _, _⟩ := v
  cases pending with
  | none => simp [State.removePending]
  | some p =>
    simp only [State.removePending, State.clearDemand, State.mapSwu, Option.bind_some]
    cases h : p.req.target with
    | none => simp [State.switchReport, State.raise, State.mapCch, switchRecord, h]
    | some n =>
      simp only [Option.bind_some]
      cases h2 : stg.holding n <;>
        simp [State.switchReport, State.raise, State.mapCch, switchRecord, h, State.setSlot,
          State.mapStg]

/-- The pending switch refused, with no slot holding its target (R138). -/
theorem State.refusePending_eq {v : State} {p : Pending} {n : SceneNo} (c : Code)
    (hp : v.swu.pending = some p) (ht : p.req.target = some n) (hh : v.stg.holding n = none) :
    v.refusePending c = { v with
      swu := { v.swu with pending := none }
      cch := { v.cch with outbox := v.cch.outbox ++
        [switchRecord p.req c v.destination (some n) false false] } } := by
  simp [State.refusePending, State.removePending, hp, ht, State.clearDemand, State.mapSwu, hh,
    State.switchReport, State.raise, State.mapCch, switchRecord]

/-- One staged copy withdrawn (R64). -/
theorem State.withdraw_eq {s u : State} {i : SlotNo} (hslot : u.stg.slots.get i = s.stg.slots.get i)
    (halone : u.stg.alone i)
    (hpend : ∀ n, (s.stg.slots.get i).scene = some n →
      (u.swu.pending.filter fun p => p.req.target == some n)
        = s.swu.pending.filter fun p => p.req.target == some n)
    (hdest : (u.emptySlot i).destination = s.destination) :
    u.withdraw i =
      { s.withdrawSlot i u with
        cch := { u.cch with outbox := u.cch.outbox ++ s.withdrawReports i } } := by
  have hb : (fun j => j != i) = fun j => !decide (j = i) := by funext j; simp [bne, Bool.beq_eq_decide_eq]
  generalize hx : s.stg.slots.get i = x at hslot hpend
  let rs : List Record := if x.state = .queued ∨ x.state = .preparing then
    [armRecord i x .invalidated] else []
  let e : State := { u.emptySlot i with cch := { u.cch with outbox := u.cch.outbox ++ rs } }
  have he : (if x.unreported = true then (u.emptySlot i).armReport i x .invalidated
      else u.emptySlot i) = e := by
    by_cases hu : x.state = .queued ∨ x.state = .preparing
    · have : x.unreported = true := by simpa [StgSlot.unreported] using hu
      simp [e, rs, this, hu, State.armReport, State.raise, State.mapCch, armRecord]
    · have : x.unreported = false := by simpa [StgSlot.unreported] using hu
      simp [e, rs, this, hu, State.emptySlot, State.mapStg]
  have hw : u.withdraw i = if u.pendingOn x.scene then e.refusePending .invalidated else e := by
    rw [← he, State.withdraw, hslot]
  rw [hw]
  cases hn : x.scene with
  | none =>
    simp [State.pendingOn, e, rs, State.withdrawSlot, State.withdrawReports, hx, hn, State.emptySlot,
      State.mapStg, hb]
  | some n =>
    have hp := hpend n hn
    cases hf : s.swu.pending.filter fun p => p.req.target == some n with
    | none =>
      have : u.pendingOn (some n) = false := by
        rw [hf] at hp
        cases hup : u.swu.pending <;> simp_all [State.pendingOn]
      simp [this, e, rs, State.withdrawSlot, State.withdrawReports, hx, hn, State.emptySlot,
        State.mapStg, hf, hb]
    | some p =>
      rw [hf, Option.filter_eq_some_iff] at hp
      have hup : u.swu.pending = some p := hp.1
      have ht : p.req.target = some n := by simpa using hp.2
      have hon : u.pendingOn (some n) = true := by simp [State.pendingOn, hup, ht]
      have hh : e.stg.holding n = none :=
        Stg.holding_emptied halone n (by rw [hslot]; exact hn) _ _ _
      rw [hon, if_pos rfl, State.refusePending_eq (v := e) .invalidated hup ht hh]
      have hd : e.destination = s.destination := hdest
      rw [hd]
      simp [e, rs, State.withdrawSlot, State.withdrawReports, hx, hn, State.emptySlot,
        State.mapStg, hf, hb]

theorem State.withdrawSlot_foldl (s u : State) (c : Cch) (is : List SlotNo) :
    is.foldl (fun u i => s.withdrawSlot i u) { u with cch := c } =
      { is.foldl (fun u i => s.withdrawSlot i u) u with cch := c } := by
  induction is generalizing u with
  | nil => rfl
  | cons i is ih => exact ih (s.withdrawSlot i u)

theorem Tbm.makesStale_state {tb : Tbm} {k : TableKind} {idx : Nat} {t : StgSlot}
    (h : tb.makesStale k idx t = true) : t.state ≠ .live ∧ t.state ≠ .fading := by
  constructor <;> intro he <;> simp [Tbm.makesStale, he] at h

/-- Emptying a slot that is not on air leaves the destination as it is (R135). -/
theorem State.destination_emptySlot {u : State} {i : SlotNo}
    (h : (u.stg.slots.get i).state ≠ .live ∧ (u.stg.slots.get i).state ≠ .fading) :
    (u.emptySlot i).destination = u.destination := by
  have key : ∀ x : SlotState, x ≠ .empty → (u.stg.slots.get i).state ≠ x →
      let f : StgSlot → Bool := fun t => t.state == x
      (((u.emptySlot i).stg.find f).bind fun j => ((u.emptySlot i).stg.slots.get j).scene) =
        (u.stg.find f).bind fun j => (u.stg.slots.get j).scene := by
    intro x he hx
    have hp : (fun j => (upd u.stg.slots i StgSlot.vacant |>.get j).state == x)
        = fun j => (u.stg.slots.get j).state == x := by
      funext j
      rw [upd_get]
      split
      · next hij =>
        subst hij
        simp [StgSlot.vacant, hx, Ne.symm he]
      · rfl
    simp only [State.emptySlot, State.mapStg, Stg.find, hp]
    cases hf : four.find? fun j => (u.stg.slots.get j).state == x with
    | none => rfl
    | some j =>
      have hj := List.find?_some hf
      have : i ≠ j := by
        rintro rfl
        exact hx (by simpa using hj)
      simp [upd_get, this]
  have h1 := key .live (by decide) h.1
  have h2 := key .fading (by decide) h.2
  simp only at h1 h2
  simp only [State.destination, State.liveScene, State.fadingScene, Stg.liveSlot, Stg.fadingSlot, h1, h2]
  rfl

/-- What stands between the state in which a write is taken and the state behind the first withdrawals, for
the slots still to be looked at. -/
structure State.Withdrawn (s : State) (is : List SlotNo) (u : State) : Prop where
  slots : ∀ j ∈ is, u.stg.slots.get j = s.stg.slots.get j
  alone : ∀ j, u.stg.alone j
  pend : ∀ j ∈ is, ∀ n, (s.stg.slots.get j).scene = some n →
    (u.swu.pending.filter fun p => p.req.target == some n)
      = s.swu.pending.filter fun p => p.req.target == some n
  dest : u.destination = s.destination
  tbm : u.tbm = s.tbm

theorem State.Withdrawn.next {s u : State} {i : SlotNo} {is : List SlotNo}
    (hs : ∀ j, s.stg.alone j) (h : s.Withdrawn (i :: is) u) (hi : i ∉ is)
    (hst : (s.stg.slots.get i).state ≠ .live ∧ (s.stg.slots.get i).state ≠ .fading) (c : Cch) :
    s.Withdrawn is { s.withdrawSlot i u with cch := c } where
  slots := by
    intro j hj
    have : i ≠ j := fun e => hi (e ▸ hj)
    simpa [State.withdrawSlot, upd_get, this] using h.slots j (List.mem_cons_of_mem _ hj)
  alone := by
    intro j k n hj hk
    simp only [State.withdrawSlot, upd_get] at hj hk
    split at hj <;> split at hk <;> simp_all [StgSlot.vacant]
    exact h.alone j k n hj hk
  pend := by
    intro j hj n hn
    have hp := h.pend j (List.mem_cons_of_mem _ hj) n hn
    simp only [State.withdrawSlot]
    split
    · next hw =>
      obtain ⟨p, hp'⟩ := Option.isSome_iff_exists.mp hw
      rw [Option.filter_eq_some_iff] at hp'
      obtain ⟨h1, h2⟩ := hp'
      simp only [Bool.and_eq_true, beq_iff_eq] at h2
      have : p.req.target ≠ some n := by
        intro e
        have := hs j i n hn (h2.2 ▸ e)
        exact hi (this ▸ hj)
      have hb : (p.req.target == some n) = false := by simpa using this
      simp [h1, Option.filter, hb]
    · exact hp
  dest := by
    have hd : ({ s.withdrawSlot i u with cch := c } : State).destination
        = (u.emptySlot i).destination := by
      simp only [State.withdrawSlot]
      split <;> rfl
    rw [hd, State.destination_emptySlot (by rw [h.slots i (by simp)]; exact hst), h.dest]
  tbm := h.tbm

/-- The staged copies that a write makes stale, withdrawn in slot-number order with their reports (R64). -/
theorem State.invalidate_eq {s : State} (hs : ∀ j, s.stg.alone j) (k : TableKind) (idx : Nat) :
    s.invalidate k idx =
      let is := four.filter fun i => s.tbm.makesStale k idx (s.stg.slots.get i)
      { is.foldl (fun u i => s.withdrawSlot i u) s with
        cch := { s.cch with outbox := s.cch.outbox ++ is.flatMap s.withdrawReports } } := by
  have main : ∀ (is : List SlotNo) (u : State), is.Nodup → s.Withdrawn is u →
      forEach is (fun i u =>
        if u.tbm.makesStale k idx (u.stg.slots.get i) then u.withdraw i else u) u =
      let js := is.filter fun i => s.tbm.makesStale k idx (s.stg.slots.get i)
      { js.foldl (fun u i => s.withdrawSlot i u) u with
        cch := { u.cch with outbox := u.cch.outbox ++ js.flatMap s.withdrawReports } } := by
    intro is
    induction is with
    | nil => intro u _ _; simp [forEach]
    | cons i is ih =>
      intro u hd h
      rw [List.nodup_cons] at hd
      have hslot := h.slots i (by simp)
      simp only [forEach, List.foldl_cons] at ih ⊢
      rw [hslot, h.tbm]
      by_cases hm : s.tbm.makesStale k idx (s.stg.slots.get i) = true
      · have hst := Tbm.makesStale_state hm
        have hw := State.withdraw_eq hslot (h.alone i) (h.pend i (by simp))
          (by rw [State.destination_emptySlot (by rw [hslot]; exact hst), h.dest])
        rw [if_pos hm, hw, ih _ hd.2 (h.next hs hd.1 hst _)]
        simp [hm, State.withdrawSlot_foldl, List.append_assoc]
      · have hm' : s.tbm.makesStale k idx (s.stg.slots.get i) = false := by simpa using hm
        rw [if_neg hm, ih u hd.2 ⟨fun j hj => h.slots j (by simp [hj]), h.alone,
          fun j hj => h.pend j (by simp [hj]), h.dest, h.tbm⟩]
        simp [hm']
  exact main four s (by decide) ⟨fun _ _ => rfl, hs, fun _ _ _ _ => rfl, rfl, rfl⟩

/-- A write answered OK, with the copies it withdraws (R58, R60, R64, R90). -/
theorem State.reply_invalidate {s : State} (hs : s.Settled) (hl : s.SlotsLegal) (m : Message)
    (rest : List Message) (k : TableKind) (idx : Nat) (f : Tbm → Tbm) :
    State.reply m (((s.removeHead rest).invalidate k idx).mapTbm f, ack .ok) =
      s.withdrawingStale k idx { s.answered m rest (ack .ok) with tbm := f s.tbm } := by
  have ha : ∀ j, (s.removeHead rest).stg.alone j := fun j k n hj hk =>
    hl.oneSlotPerScene k j n hk hj
  have hfold : ∀ (is : List SlotNo) (u : State) (c : Cch) (t : Tbm),
      is.foldl (fun u i => s.withdrawSlot i u) { u with cch := c, tbm := t } =
        { is.foldl (fun u i => s.withdrawSlot i u) u with cch := c, tbm := t } := by
    intro is
    induction is with
    | nil => intros; rfl
    | cons i is ih => intro u c t; exact ih (s.withdrawSlot i u) c t
  have hr : (s.removeHead rest).withdrawReports = s.withdrawReports := rfl
  have hw : (s.removeHead rest).withdrawSlot = s.withdrawSlot := rfl
  rw [State.reply_ack_eq, State.invalidate_eq ha, State.withdrawingStale, State.withdrawing_foldl]
  have ht : ∀ (is : List SlotNo) (u : State), (is.foldl (fun u i => s.withdrawSlot i u) u).tbm = u.tbm := by
    intro is
    induction is with
    | nil => intro u; rfl
    | cons i is ih => intro u; exact ih (s.withdrawSlot i u)
  have hu : { s.answered m rest (ack .ok) with tbm := f s.tbm } =
      { s.removeHead rest with
        cch := s.cch.answered rest ((ack .ok).record m.tag), tbm := f s.tbm } := rfl
  have ho : (s.removeHead rest).cch.outbox = [] := hs.reported
  have hc : { (s.removeHead rest).cch with
      outbox := [], class2 := (s.removeHead rest).cch.class2 ++ [(ack .ok).record m.tag] }
      = s.cch.answered rest ((ack .ok).record m.tag) := by
    have hs' : s.cch.outbox = [] := hs.reported
    simp [State.removeHead_eq, Cch.answered, hs']
  rw [hu, hfold]
  simp only [State.mapTbm, hr, hw, ht, ho, List.nil_append]
  rw [← hc]
  rfl

end Sys2Proof.Machine
end

