-- ==== Sys2Proof/Tests/Slice0.lean ====
section
/-! SUPPORT. Tests of the model against the manual's worked cases, and the witnesses of the
statements: for each statement with hypotheses, states and operands that meet them. -/

namespace Sys2Proof.Tests

set_option Elab.async false

open Sys2Proof.Machine

/-! ### Helpers -/

/-- The state after reset with the link locked and a frame just processed. -/
def ready : State :=
  { State.reset with
    sli := { Sli.reset with lock := .locked }, frame := { FrameEnd.closed with isOpen := true } }

/-- The same at a block boundary. -/
def atBlock : State := { ready with frame := { ready.frame with atBlock := true } }

/-- An undamaged message with tag 7. -/
def msg (code a0 : Nat) (body : List Nat) : Message :=
  { len := body.length, code := code, tag := 7, a0 := a0, body := body.map payload, damaged := false }

/-- The state with one message in the command FIFO. -/
def withMsg (m : Message) (s : State) : State := { s with cch := { s.cch with fifo := [m] } }

/-- The premises of `Takes`, decided. -/
def taken (row : MessageRow) (m : Message) (s : State) : Bool :=
  !s.sli.resetHeld && s.quiet && s.cch.outbox.isEmpty && s.cch.fifo == [m] && m.row == row
    && s.mayTake row

theorem takes_of {row m s} (h : taken row m s = true) : Takes row m [] s := by
  simp [taken] at h
  exact ⟨⟨h.1.1.1.1.1, h.1.1.1.1.2, h.1.1.1.2⟩, h.1.1.2, h.1.2, h.2⟩

theorem settled_of {s : State}
    (h : (!s.sli.resetHeld && s.quiet && s.cch.outbox.isEmpty) = true) : s.Settled := by
  simp at h
  exact ⟨h.1.1, h.1.2, h.2⟩

/-- The code of the answer that a step gives to a message it takes; none if it does not take it. -/
def answer (c : Instr) (m : Message) (s : State) : Option Code :=
  let s := withMsg m s
  match messageRowOf c, exec c s with
  | some row, .next t => if taken row m s then t.cch.class2.head?.map Record.code else none
  | _, _ => none

/-- The payloads of that answer. -/
def answerBody (c : Instr) (m : Message) (s : State) : Option (List Nat) :=
  let s := withMsg m s
  match messageRowOf c, exec c s with
  | some row, .next t =>
    if taken row m s then t.cch.class2.head?.map fun r => r.body.map BitVec.toNat else none
  | _, _ => none

/-- An answer of `answer` is an answer under the premises of the statements. -/
theorem takes_of_answer {c : Instr} {row : MessageRow} {m : Message} {s : State} {k : Code}
    (hr : messageRowOf c = some row) (h : answer c m s = some k) :
    Takes row m [] (withMsg m s) := by
  apply takes_of
  simp only [answer, hr] at h
  split at h
  · next h1 _ =>
    cases h1
    split at h
    · assumption
    · cases h
  · cases h

/-- The next state of a step, if there is one. -/
def after (c : Instr) (s : State) : Option State :=
  match exec c s with
  | .next t => some t
  | _ => none

/-- The words of a SCENE entry with a DRIVE, a CAB of 128 taps and a DELAY stage on line 0. -/
def sceneWords : List Nat :=
  [0, 3, 2, 32768, 0x030103, 2, 256, 32768, 0x050103, 3, 128, 32768,
   0x07010A, 0, 32768, 0, 24000, 1, 1, 16384, 32767, 16384, 1]

/-- Scene 5 loaded with `sceneWords` and VALID, with the SHAPE and IR entries it references. -/
def tables : Tbm :=
  (((Tbm.blank.writeEntry .scene 5 0 (sceneWords.map payload)).setValid .scene 5 true).setValid
    .shape 2 true).setValid .ir 3 true

/-- The prepared image of scene 5, with its taps cut to two. -/
def image : Image := { record := tables.sceneRecord 5, taps := [0x400000, 0x200000] }

def slotOf (state : SlotState) (n : SceneNo) : StgSlot :=
  { StgSlot.vacant with state := state, scene := some n, image := some image }

/-- Scene 5 LIVE in slot 0. -/
def playing (s : State) : State :=
  { s with
    tbm := tables
    stg := { s.stg with slots := upd s.stg.slots 0 (slotOf .live 5) }
    sce := { s.sce with live := some (Copy.ofImage image) } }

def request (n : Option SceneNo) : Request :=
  { target := n, source := .controller, quantize := .none, override := none, gate := none
    owner := none, tag := 9 }

def pendingFor (n : Option SceneNo) : Pending := { req := request n, passed := true, fresh := false }

/-- Scene 5 LIVE in slot 0, scene 6 FADING in slot 1, a crossfade of 256 frames in flight. -/
def crossing (elapsed : Nat) (rev : Option Request) (s : State) : State :=
  let s := playing s
  { s with
    stg := { s.stg with slots := upd s.stg.slots 1 (slotOf .fading 6) }
    sce := { s.sce with fading := some (Copy.ofImage image) }
    swu := { s.swu with crossfade := some {
      length := 256, elapsed := elapsed, served := request (some 5), reversed := false,
      reversal := rev, reversalFresh := false } } }

/-- Scene 5 LIVE with a DELAY stage SYNCED at 3/4 on line 0; line 1 is a TAIL. -/
def synced (s : State) : State :=
  let delay : StageRecord := ⟨.delay, true, [0, 0, 1, 9, 3, 4, 0, 200, 0, 1].map payload⟩
  let line : Line := { Line.free with state := .live, owner1 := some 5, mem := [7], current := 5, target := 5 }
  { playing s with
    sce := { s.sce with
      live := some (Copy.ofImage { image with record := { image.record with stages := [delay] } }) }
    dlu := { s.dlu with
      lines := #v[line, { line with state := .tail, owner1 := none }, Line.free, Line.free] } }

/-- The current and target times of lines 0 and 1. -/
def times (t : State) : List (Nat × Nat) := (t.dlu.lines.toList.take 2).map fun l => (l.current, l.target)

def entry (n : Option SceneNo) (r : Reason) : StackEntry := { saved := n, reason := r, owner := none }

def withStack (es : List StackEntry) (s : State) : State := { s with swu := { s.swu with stack := es } }

/-- Gates: 0 absent, 1 TUNER, 2 SCENE with CUE_RUNNING and no else gate, 3 the same with else gate 9,
4 MOMENTARY, 5 RETURN, 6 as 3 with else gate 0; the limit is 8. -/
def gated (s : State) : State :=
  let gates := [0x831000, 0, 0, 0x801001, 0, 0, 0x801001, 0, 0x800009, 0x811000, 0x050000, 0,
    0x821000, 0, 0, 0x801001, 0, 0x800000]
  let t := s.tbm.writeEntry .gate 1 0 (gates.map payload)
  { s with tbm := { t with gateLimit := 8 } }

/-- Cue list 3 starts at record 10, which plays scene 5 for 8 beats. -/
def cued (flags tempo : Nat) (s : State) : State :=
  let directory := s.tbm.writeEntry .cuedir 3 0 [payload (0x800000 + 10)]
  let record := [payload (0x050000 + flags), payload (8 <<< 12), payload tempo]
  { s with tbm := directory.writeEntry .cue 10 0 record }

/-- A cue sequencer in a state at record `i`. -/
def cueAt (st : CueState) (i : Nat) (op : Option HeldOp) (due : Option CueDue) (s : State) : State :=
  { s with csq := { s.csq with
      state := st, list := 3, current := some i, remaining := 2, heldOp := op, due := due } }

/-! ### Operands and control words -/

/-- R3: an interval has 1 to 512 bit clocks, and only the 512th ends one without a mark. -/
theorem test_intervals_well_formed :
    let iv (n : Nat) (mark : Bool) : Instr := .syncIntervalEnd ⟨n, mark, Vector.replicate 8 0⟩
    (iv 1 true).wellFormed ∧ (iv 512 true).wellFormed ∧ (iv 512 false).wellFormed ∧
    ¬ (iv 0 true).wellFormed ∧ ¬ (iv 513 true).wellFormed ∧ ¬ (iv 511 false).wellFormed := by decide

/-- R20: a HEAD of LOAD with 61 words, tag A5H and A0 = 3, its bits written out by field; a BODY with
number 60; IDLE; ABORT. -/
theorem test_control_words :
    controlWord 0b01_111101_00001010_10100101_00000011#32 = .head 61 10 0xA5 3 ∧
    controlWord 0b10_111100_100000000000000000000001#32 = .body 60 0x800001 ∧
    controlWord 0b00_111111_111111111111111111111111#32 = .idle ∧
    controlWord 0b11_000000_000000000000000000000000#32 = .abort := by decide

/-- R21: an RHEAD of a class 3 record of kind CUE with two RBODY words, tag 129 and code OK, and an RBODY. -/
theorem test_reply_words :
    (cueRecord 129 .ok 0 0 0 0 none 0 false 0).rhead = 0b01_10_0110_000010_10000001_00000000_00#32 ∧
    rbody 1 0x800001 = 0b10_000001_100000000000000000000001#32 := by decide

/-- The table gives no row bits, so no word spells a command and the fetch of one changes nothing. -/
theorem test_no_word_spells_a_command :
    decodeTableWord 8 255 = none ∧ (State.reset.withFetchWord 8 255).pending = [] := by decide

/-! ### Worked cases -/

/-- Chapter 5, crossfade mixes. -/
theorem test_crossfade_mixes :
    crossMix 7 (-4) 16384 = 2 ∧ crossMix 2000000 (-1000000) 8192 = -250000 ∧
    crossMix 8388607 (-8388608) 1 = -8388096 ∧ crossMix (-3) 4 32768 = -3 ∧
    crossMix (-3) 4 0 = 4 := by decide

/-- The points of the worked AMP stage. -/
def points (n : Nat) : Int :=
  match n with
  | 246 => -300000 | 247 => -270000 | 342 => 5050000 | 343 => 5080000 | 347 => 5200000
  | 348 => 5230000 | 511 => 7900000 | 512 => 8200000 | _ => 0

/-- Chapter 5, three frames of an AMP stage: shaper outputs, envelopes and levels. -/
theorem test_amp_three_frames :
    (shaper points 768 0 1000000).val = 5216582 ∧ envelope 4096 512 0 5216582 = 652073 ∧
    (levelStep 5216582 16384).val = 2608291 ∧ sagOffset 652073 8192 = 163018 ∧
    (shaper points 768 163018 1000000).val = 5067335 ∧
    envelope 4096 512 652073 5067335 = 1203981 ∧ (levelStep 5067335 16384).val = 2533668 ∧
    (shaper points 768 (sagOffset 1203981 8192) 0).val = -275569 ∧
    envelope 4096 512 1203981 (-275569) = 1189475 ∧ (levelStep (-275569) 16384).val = -137784 := by
  decide

/-- Chapter 5, the shaper at its limits: two clips, one at the clamp and one at the level. -/
theorem test_shaper_at_its_limits :
    (shaper points 768 0 4000000).val = 8199991 ∧ (shaper points 768 0 4000000).clips = 1 ∧
    (levelStep 8199991 40000).val = 8388607 ∧ (levelStep 8199991 40000).clips = 1 ∧
    (shaper points 65535 0 (-8388608)).val = points 0 := by decide

/-- Chapter 5, a biquad with feedback, and one whose output clamps. -/
theorem test_biquad :
    let k : Coeffs := ⟨2097152, 0, 0, -2097152, 0⟩
    let run (h : Biquad) := biquad k h 1000001
    (run Biquad.zero).1.val = 500001 ∧ (run (run Biquad.zero).2).1.val = 750001 ∧
    (run (run (run Biquad.zero).2).2).1.val = 875001 ∧
    let b := biquad ⟨4194304, 0, 0, -8388608, 0⟩ ⟨0, 0, 5000000, 0⟩ 5000000
    b.1.val = 8388607 ∧ b.1.clips = 1 := by decide

/-- Chapter 5, the cabinet FIR. -/
theorem test_cabinet_fir :
    let h : List Word24 := [4194304, 2097152, -1048576]
    (fir h [] 7000003).val = 3500002 ∧ (fir h [7000003] 0).val = 1750001 ∧
    (fir h [0, 7000003] 0).val = -875000 ∧
    (fir [4194304, 4194304, 4194304, 4194304, 4194304] [4000000, 4000000, 4000000, 4000000]
      4000000).clips = 1 := by decide

/-- Chapter 4, the second ramp of the worked sequence, from 448 toward 300. -/
theorem test_ramp_steps :
    let p : Param := { set := 300, run := 448, change := some (.ramp 448 300 0), fresh := false }
    (List.range 8).map (fun k => (Param.step^[k + 1] p).run)
      = [430, 411, 393, 374, 356, 337, 319, 300] := by decide

/-- Chapter 6, one frame of a shared line. -/
theorem test_shared_line :
    let l : Line := { Line.free with state := .live, wet := 24576, feedback := 16384, current := 1,
                                     target := 1, mem := [400000] }
    l.sample = 400000 ∧ l.wetOut = 300000 ∧
    sendSum 1 8192 [⟨1, 200000, 32768⟩] = 50000 ∧ sendSum 1 24576 [⟨1, 100000, 49152⟩] = 112500 := by
  decide

/-- Chapter 6, effective times: 3/4 at 120 BPM, 8/1 at the slowest tempo, 1/16 at the fastest. -/
theorem test_effective_times :
    let st (n d : Nat) : Stage := Stage.ofRecord
      ⟨.delay, true, [0, 32768, 1, 24000, n, d, 0, 0, 0, 0].map payload⟩
    effectiveTime 24000 (st 3 4) = 18000 ∧ effectiveTime 144000 (st 8 1) = 98303 ∧
    effectiveTime 12000 (st 1 16) = 750 := by decide

/-- Chapter 3, validating a scene: the worked example, stage 6 on line 0, 600 taps, stage 6 on line 4,
and ten stages that cost 518. -/
theorem test_validate_scene :
    let z (n : Nat) : List Nat := List.replicate n 0
    let scene (taps line : Nat) : List Nat :=
      [0, 7, 0, 32768] ++ 0x010105 :: z 5 ++ 0x030103 :: z 3 ++ 0x04011A :: z 26
        ++ [0x050103, 3, taps, 0] ++ 0x07010A :: z 10 ++ 0x07010A :: line :: z 9 ++ [0x090101, 0]
    let costly (two : List Nat) : List Nat :=
      [0, 10, 0, 0] ++ 0x04011A :: z 26 ++ 0x04011A :: z 26 ++ 0x04011A :: z 26
        ++ [0x050103, 0, 1024, 0] ++ 0x060105 :: z 5 ++ 0x030103 :: z 3 ++ two
        ++ 0x07010A :: z 10 ++ 0x07010A :: 1 :: z 9 ++ 0x07010A :: 2 :: z 9
    let check (ws : List Nat) : Code := validateScene fun i => payload (ws.getD i 0)
    check (scene 512 1) = .ok ∧ check (scene 512 0) = .invalid ∧ check (scene 600 1) = .invalid ∧
    check (scene 512 4) = .ok ∧ check (costly (0x030103 :: z 3)) = .cost ∧
    check (costly (0x020105 :: z 5)) = .ok := by decide +kernel

/-- Chapter 9, a tap series: the mean of the last four intervals, an interval of 11,999 or of more than
144,000, and the series that opens. -/
theorem test_tap_series :
    let s (h : List Nat) (n : Nat) : State :=
      { ready with tck := { ready.tck with tapOpen := true, tapHistory := h, tapCount := n } }
    let p (h : List Nat) (n : Nat) : Option Nat :=
      (after .tap (withMsg (msg 42 0 []) (s h n))).map fun t => t.tck.period
    p [24000] 25000 = some 24500 ∧ p [24000, 25000, 23000, 30000] 26000 = some 26000 ∧
    answer .tap (msg 42 0 []) (s [24000] 11999) = some .skipped ∧
    answer .tap (msg 42 0 []) (s [24000] 12000) = some .ok ∧
    answer .tap (msg 42 0 []) (s [24000] 144000) = some .ok ∧ p [30000] 144000 = some 87000 ∧
    answer .tap (msg 42 0 []) (s [24000] 144001) = some .ok ∧ p [30000] 144001 = some 24000 ∧
    answer .tap (msg 42 0 []) ready = some .ok := by decide +kernel

/-- Chapter 10, a low E string: the first crossing lies 85 ticks behind frame 1,200, and the window of four
periods gives note 28, −30 cents and 1,296 sixteenths of a hertz. -/
theorem test_low_e_string :
    let t : Tun := { Tun.reset with index := 1201, previous := some (-1000), armed := true }
    (t.measure 2000).lastCross = some 307285 ∧
    pitchOf 606815 440 = { note := 28, cents := -30, freq := 1296 } := by decide +kernel

/-! ### Witnesses: messages. An answer shows the premises of `Takes` (`takes_of_answer`); each line is a
form, or a boundary value, of a clause. -/

theorem witness_DamagedAndUnknownAnswered :
    answer .damagedMessage { msg 1 0 [] with damaged := true } ready = some .overrun ∧
    answer .unknownCommand (msg 0 0 []) ready = some .badCommand ∧
    answer .unknownCommand (msg 72 0 []) ready = some .badCommand := by decide +kernel

theorem witness_PingAnswers :
    Takes .ping (msg 1 5 []) [] (withMsg (msg 1 5 []) ready) ∧
    answerBody .ping (msg 1 5 [])
      { ready with sli := { ready.sli with counter := 65539 } } = some [0x050003] ∧
    answer .ping (msg 1 5 [0]) ready = some .badLength :=
  ⟨takes_of (by decide +kernel), by decide +kernel, by decide +kernel⟩

theorem witness_StatusAndMetersReadAndClear :
    (answerBody .status (msg 2 0 []) ready).map List.length = some 8 ∧
    answer .status (msg 2 2 []) ready = some .range ∧
    answer .status (msg 2 2 [0]) ready = some .badLength ∧
    answer .statusZeroCounters (msg 2 1 []) ready = some .ok ∧
    answer .statusZeroCounters (msg 2 1 [0]) ready = some .badLength ∧
    (answerBody .meters (msg 3 0 []) (playing ready)).map (List.take 1) = some [0x050300] ∧
    (answerBody .meters (msg 3 0 []) ready).map List.length = some 14 := by decide +kernel

theorem witness_SlotmapHeldOrRefused :
    let m (c r : Nat) : Message :=
      msg 4 0 [0x000102, 0x060000 + c <<< 8, 0x000102, 0x030405, 0x060000 + r <<< 8]
    answer .slotmap (m 7 7) ready = some .ok ∧ answer .slotmap (m 8 7) ready = some .range ∧
    answer .slotmap (m 255 7) ready = some .range ∧ answer .slotmap (m 7 255) ready = some .range ∧
    answer .slotmap (m 6 7) ready = some .range ∧ answer .slotmap (m 7 5) ready = some .range ∧
    answer .slotmap (msg 4 0 [0, 0, 0, 0]) ready = some .badLength := by decide +kernel

theorem witness_RestartResetsByScope :
    answer .restartEngine (msg 5 0 []) (playing ready) = some .ok ∧
    answer .restartEngine (msg 5 2 []) ready = some .range ∧
    answer .restartEngine (msg 5 0 [0]) ready = some .badLength ∧
    answer .restartAll (msg 5 1 []) (playing ready) = some .ok ∧
    answer .restartAll (msg 5 1 [0]) ready = some .badLength := by decide +kernel

theorem witness_LoadWritesItsWords :
    let load (k i off n : Nat) : Option Code :=
      answer .load (msg 10 k ((i <<< 12 + off) :: List.replicate n 0)) (playing ready)
    load 0 127 0 60 = some .ok ∧ load 0 127 0 61 = some .badLength ∧ load 0 0 0 0 = some .badLength ∧
    load 0 128 0 1 = some .range ∧ load 0 0 273 1 = some .ok ∧ load 0 0 273 2 = some .range ∧
    load 6 1023 0 3 = some .ok ∧ load 6 1024 0 3 = some .range ∧ load 8 0 0 1 = some .range ∧
    load 11 0 0 1 = some .range ∧ load 4 0 1 1 = some .range ∧ load 0 5 0 1 = some .inUse ∧
    load 1 2 0 1 = some .inUse ∧ load 1 3 512 1 = some .ok := by decide +kernel

/-- R50–R53, R161: quantize 3 by the kind of the gate, its other fields at their ends, and the ranges of the FOOTMAP,
EXPMAP and CUE entries. -/
theorem witness_LoadWritesItsWords_ranges :
    let load (k : Nat) (ws : List Nat) : Option Code := answer .load (msg 10 k (0 :: ws)) ready
    let gate (kind : Nat) (q : Nat) : Option Code := load 3 [kind <<< 16 + 1 <<< 12 + q <<< 8, 0x010000, 0]
    (List.range 8).map (gate · 3) = [some .range, some .range, some .ok, some .ok, some .ok, some .ok,
      some .ok, some .ok] ∧
    (List.range 8).map (gate · 2) = List.replicate 8 (some .ok) ∧
    load 3 [0x001000, 0x7F0000] = some .ok ∧ load 3 [0x001000, 0x800000] = some .range ∧
    load 3 [0x001000, 0xFF0000] = some .ok ∧ load 3 [0x021000, 0x800000] = some .ok ∧
    load 3 [0x000000] = some .range ∧ load 3 [0x001005] = some .ok ∧ load 3 [0x001006] = some .range ∧
    load 3 [0x041000, 0x0A0000] = some .ok ∧ load 3 [0x041000, 0x0B0000] = some .range ∧
    load 3 [0x051000, 0x0F0400] = some .ok ∧ load 3 [0x051000, 0x0F0500] = some .range ∧
    load 3 [0x061000, 0x050000] = some .ok ∧ load 3 [0x061000, 0x060000] = some .range ∧
    load 4 [0, 40] = some .ok ∧ load 4 [0, 41] = some .range ∧ load 4 [0, 0] = some .range ∧
    load 5 [0x020A19] = some .ok ∧ load 5 [0x020A1A] = some .range ∧ load 5 [0x030101] = some .range ∧
    load 6 [0, 0x008008, 2000] = some .ok ∧ load 6 [0, 0x008009, 2000] = some .range ∧
    load 6 [0, 0, 24001] = some .range ∧ load 6 [0, 0, 1999] = some .range := by
  refine ⟨?_, ?_, ?_, ?_, ?_, ?_, ?_, ?_, ?_, ?_, ?_, ?_, ?_, ?_, ?_, ?_, ?_, ?_, ?_, ?_, ?_, ?_, ?_, ?_,
    ?_⟩ <;> decide +kernel

theorem witness_ReadReturnsTheWords :
    let read (k i off n : Nat) : Option (List Nat) :=
      answerBody .read (msg 11 k [i <<< 12 + off, n]) (playing ready)
    let code (k i off n : Nat) : Option Code :=
      answer .read (msg 11 k [i <<< 12 + off, n]) (playing ready)
    read 0 5 0 4 = some [0, 3, 2, 32768] ∧ read 6 1023 0 3 = some [0xFF0000, 0, 0] ∧
    code 0 0 214 60 = some .ok ∧ code 9 0 11 1 = some .ok ∧ code 9 0 11 2 = some .range ∧
    code 0 0 215 60 = some .range ∧ code 0 0 0 0 = some .range ∧ code 0 0 0 61 = some .range ∧
    code 11 0 0 1 = some .range ∧ code 10 1 0 1 = some .range ∧
    answer .read (msg 11 0 [0]) ready = some .badLength := by decide +kernel

/-- R57: the words of the views, their bits written out by field. -/
theorem witness_ReadReturnsTheWords_views :
    let l : Line := { Line.free with
      state := .tail, current := 5, target := 7, held := some 9, position := 3, feedback := 1, wet := 2
      pan := 4, tail := true, mem := [0, 0], quiet := 6, age := 8 }
    let shared : Line := { l with state := .live, owner1 := some 5, owner2 := some 6, held := none }
    let slot : StgSlot := { slotOf .ready 60 with pinned := true, demanded := true }
    let es := [entry (some 3) .momentary, { entry none .tuner with owner := some 11 }]
    let s : State := { withStack es ready with
      stg := { ready.stg with slots := upd ready.stg.slots 3 slot }
      dlu := { ready.dlu with lines := #v[Line.free, shared, l, Line.free] } }
    let read (k i off n : Nat) : Option (List Nat) := answerBody .read (msg 11 k [i <<< 12 + off, n]) s
    read 8 3 0 1 = some [0b011_00000_00111100_00000_1_0_1] ∧
    read 8 0 0 1 = some [0b000_00000_11111111_00000_0_0_0] ∧
    read 9 2 0 12 = some [0b10_000000_11111111_11111111, 5, 7, 9, 3, 1, 2, 4, 1, 2, 6, 8] ∧
    read 9 1 0 4 = some [0b01_000000_00000101_00000110, 5, 7, 0] ∧
    read 10 0 0 5 = some [2, 0x0301FF, 0xFF020B, 0xFF00FF, 0xFF00FF] := by
  refine ⟨?_, ?_, ?_, ?_, ?_⟩ <;> decide +kernel

theorem witness_EraseByKind :
    let erase (k i : Nat) : Option Code :=
      answer .erase (msg 12 k [i <<< 12]) (cueAt .running 10 none none (playing ready))
    erase 0 127 = some .ok ∧ erase 0 128 = some .range ∧ erase 0 5 = some .inUse ∧
    erase 2 3 = some .inUse ∧ erase 2 7 = some .ok ∧ erase 3 0 = some .ok ∧ erase 4 11 = some .ok ∧
    erase 4 12 = some .range ∧ erase 5 3 = some .ok ∧ erase 6 10 = some .inUse ∧
    erase 6 1023 = some .ok ∧ erase 7 15 = some .ok ∧ erase 8 0 = some .range ∧
    answer .erase (msg 12 0 []) ready = some .badLength := by decide +kernel

theorem witness_CommitMakesValid :
    let s : State := { ready with tbm := tables.setValid .scene 5 false }
    let commit (k i : Nat) (s : State) : Option Code := answer .commit (msg 13 k [i <<< 12]) s
    commit 0 5 s = some .ok ∧ commit 0 5 (playing ready) = some .ok ∧ commit 0 6 s = some .invalid ∧
    commit 0 128 s = some .range ∧ commit 1 15 s = some .ok ∧ commit 2 8 s = some .range ∧
    commit 3 0 s = some .range ∧ answer .commit (msg 13 0 []) s = some .badLength ∧
    validateScene (tables.word .scene 5) = .ok := by decide +kernel

/-- R47–R49, R61: each field at its end and past it: the input select, the stage count, the fade, the kind code, the
word count and the last word; the cost; two CAB, two LOOP and two DELAY stages, of lines 2 and 3, 3 and 9; and the
taps. -/
theorem witness_CommitMakesValid_checks :
    let z (n : Nat) : List Nat := List.replicate n 0
    let check (ws : List Nat) : Code := validateScene fun i => payload (ws.getD i 0)
    let one (a c f h : Nat) : Code := check ([a, c, f, 0, h] ++ z 30)
    let many (n : Nat) (hs : List Nat) : Code := check ([0, n, 0, 0] ++ hs)
    let cab (t : Nat) : List Nat := [0x050103, 0, t, 0]
    let line (n : Nat) : List Nat := 0x07010A :: n :: z 9
    let amp : List Nat := 0x04011A :: z 26
    one 2 1 7 0x090001 = .ok ∧ one 3 1 7 0x090001 = .invalid ∧ one 2 1 8 0x090001 = .invalid ∧
    one 0 0 0 0x090001 = .invalid ∧ many 10 ((z 10).flatMap fun _ => [0x090101, 0]) = .ok ∧
    many 11 ((z 11).flatMap fun _ => [0x090101, 0]) = .invalid ∧ one 0 1 0 0x000000 = .invalid ∧
    one 0 1 0 0x0A0001 = .invalid ∧ one 0 1 0 0x090002 = .invalid ∧
    many 10 ((z 10).flatMap fun _ => amp) = .cost ∧
    many 2 (cab 128 ++ cab 128) = .invalid ∧ many 2 [0x080003, 0, 0, 0, 0x080003, 0, 0, 0] = .invalid ∧
    many 2 (line 2 ++ line 3) = .ok ∧ many 2 (line 3 ++ line 9) = .invalid ∧
    [0, 128, 192, 1024, 1152].map (fun t => many 1 (cab t)) = [.invalid, .ok, .invalid, .ok, .invalid] ∧
    many 1 (cab 2052) = .cost ∧ many 1 (cab 2048) = .invalid := by
  refine ⟨?_, ?_, ?_, ?_, ?_, ?_, ?_, ?_, ?_, ?_, ?_, ?_, ?_, ?_, ?_, ?_, ?_⟩ <;> decide +kernel

theorem witness_StoreWritesTheLiveCopy :
    let store (n : Nat) (s : State) : Option Code := answer .store (msg 31 n []) s
    store 5 (playing ready) = some .ok ∧ store 127 (playing ready) = some .ok ∧
    store 128 (playing ready) = some .range ∧ store 5 ready = some .notPresent ∧
    store 9 (withStack [entry (some 9) .momentary] (playing ready)) = some .inUse ∧
    answer .store (msg 31 5 [0]) (playing ready) = some .badLength := by decide +kernel

/-- Scene 5 READY in slot 1, scene 7 QUEUED in slot 3 for a pending switch; both reference IR 3. -/
def stale : State :=
  { ready with
    tbm := (tables.writeEntry .scene 7 0 (sceneWords.map payload)).setValid .scene 7 true
    stg :=
      { slots := #v[StgSlot.vacant, slotOf .ready 5, StgSlot.vacant,
          { slotOf .queued 7 with demanded := true }]
        armQueue := [3], readyOrder := [1], loaderWaits := false }
    swu := { ready.swu with pending := some (pendingFor (some 7)) }
    sce := { ready.sce with live := some (Copy.ofImage image) } }

/-- The slot states and report codes behind a write that withdraws what the statements say. -/
def withdrawn (c : Instr) (k : TableKind) (idx : Nat) (m : Message) (s : State) :
    Option (List SlotState × List Code) :=
  let s := withMsg m s
  (after c s).bind fun t =>
    if t = s.withdrawingStale k idx { s.answered m [] (ack .ok) with tbm := t.tbm } then
      some (t.stg.slots.toList.map (·.state), t.cch.class3.map (·.code))
    else none

/-- R64: two slots made stale by one LOAD, one by an ERASE, and a QUEUED one with its pending switch by
a STORE into its entry. -/
theorem witness_WritesWithdrawStaleCopies :
    stale.SlotsLegal ∧
    withdrawn .load .ir 3 (msg 10 2 [3 <<< 12, 0]) stale =
      some ([.empty, .empty, .empty, .empty], [.invalidated, .invalidated]) ∧
    withdrawn .erase .scene 5 (msg 12 0 [5 <<< 12]) stale =
      some ([.empty, .empty, .empty, .queued], []) ∧
    withdrawn .store .scene 7 (msg 31 7 []) stale =
      some ([.empty, .ready, .empty, .empty], [.invalidated, .invalidated]) := by
  refine ⟨⟨?_, by decide +kernel, by decide +kernel, by decide +kernel⟩, by decide +kernel,
    by decide +kernel, by decide +kernel⟩
  have h : ∀ i j, (stale.stg.slots.get i).scene = (stale.stg.slots.get j).scene →
      (stale.stg.slots.get i).scene ≠ none → i = j := by decide +kernel
  exact fun i j n hi hj => h i j (hi.trans hj.symm) (by simp [hi])

/-- Scene 5 in slot 0 as the state says, and the other slots holding scenes 60 to 62. -/
def slotted (st : SlotState) (pinned : Bool) : State :=
  let full := { slotOf .ready 60 with pinned := true }
  { ready with
    tbm := tables.setValid .scene 8 true
    stg :=
      { slots := #v[{ slotOf st 5 with pinned := pinned }, full, { full with scene := some 61 },
          { full with scene := some 62 }]
        armQueue := [], readyOrder := [1, 2, 0, 3], loaderWaits := false } }

theorem witness_ArmRequestTakesASlot :
    let arm (a0 : Nat) (s : State) : Option Code := answer .arm (msg 20 a0 []) s
    arm 8 (slotted .ready false) = some .accepted ∧ arm 8 (slotted .ready true) = some .busy ∧
    arm 133 (slotted .ready false) = some .ok ∧ arm 5 (slotted .live false) = some .already ∧
    arm 127 (slotted .ready false) = some .notPresent ∧ arm 0 ready = some .notPresent ∧
    answer .arm (msg 20 5 [0]) ready = some .badLength ∧
    (slotted .ready false).stg.choose = some 0 ∧ (slotted .ready true).stg.choose = none ∧
    ready.stg.choose = some 0 := by decide +kernel

theorem witness_DisarmEmptiesTheSlot :
    let s (st : SlotState) (demanded : Bool) : State :=
      { ready with
        stg := { ready.stg with
          slots := upd ready.stg.slots 3 { slotOf st 5 with demanded := demanded } }
        swu := { ready.swu with pending := some (pendingFor (some 5)) } }
    let disarm (w : Nat) (s : State) : Option Code := answer .disarm (msg 21 0 [w]) s
    disarm 0x000005 (s .queued false) = some .ok ∧ disarm 0x010003 (s .preparing true) = some .ok ∧
    disarm 0x010003 (s .ready false) = some .ok ∧ disarm 0x010003 (s .live false) = some .inUse ∧
    disarm 0x000005 (s .fading false) = some .inUse ∧ disarm 0x010000 ready = some .notPresent ∧
    disarm 0x00007F ready = some .notPresent ∧ disarm 0x000080 ready = some .range ∧
    disarm 0x010004 ready = some .range ∧ disarm 0x020000 ready = some .range ∧
    answer .disarm (msg 21 0 []) ready = some .badLength := by decide +kernel

theorem witness_SwitchSceneMakesThePendingSwitch :
    let switch (a0 : Nat) (body : List Nat) (s : State) : Option Code :=
      answer .switchScene (msg 22 a0 body) s
    let with' (p : Pending) (s : State) : State := { s with swu := { s.swu with pending := some p } }
    switch 5 [] (playing ready) = some .already ∧
    switch 5 [] (with' (pendingFor none) (playing ready)) = some .already ∧
    switch 255 [] ready = some .already ∧ switch 255 [0x020107] (playing ready) = some .accepted ∧
    switch 5 [0x010000] (slotted .ready false) = some .accepted ∧
    switch 8 [] (slotted .ready false) = some .accepted ∧
    switch 8 [] (slotted .ready true) = some .busy ∧
    switch 127 [] (slotted .ready true) = some .notPresent ∧ switch 128 [] ready = some .range ∧
    switch 254 [0] ready = some .range ∧ switch 5 [0x030000] ready = some .range ∧
    switch 5 [0, 0] ready = some .badLength := by decide +kernel

/-- The answer to a SWITCH_SCENE, the pending target behind it and the codes of the reports. -/
def switched (a0 : Nat) (s : State) : Option (Code × Option (Option SceneNo) × List Code) :=
  let m := msg 22 a0 []
  (answer .switchScene m s).bind fun c => (after .switchScene (withMsg m s)).map fun t =>
    (c, t.swu.pending.map (·.req.target), t.cch.class3.map (·.code))

/-- R135 cases 1 and 3: a pending switch is superseded, and its slot is then free for its successor; a third
scene in a crossfade, and the destination while a reversal is held. -/
theorem witness_SwitchSceneMakesThePendingSwitch_superseded :
    let with' (n : Option SceneNo) (s : State) : State :=
      { s with swu := { s.swu with pending := some (pendingFor n) } }
    let demanded : State :=
      let s := slotted .ready false
      let slot : StgSlot := { slotOf .ready 5 with demanded := true }
      with' (some 5) { s with stg := { s.stg with slots := upd s.stg.slots 0 slot } }
    let third (r : Option Request) : State :=
      { with' none (crossing 64 r ready) with tbm := tables.setValid .scene 8 true }
    switched 8 demanded = some (.accepted, some (some 8), [.superseded]) ∧
    switched 8 (with' (some 61) (slotted .ready true)) = some (.busy, none, [.superseded]) ∧
    switched 127 (with' (some 61) ready) = some (.notPresent, none, [.superseded]) ∧
    switched 8 (third none) = some (.accepted, some (some 8), [.superseded]) ∧
    switched 255 (third none) = some (.accepted, some none, [.superseded]) ∧
    switched 5 (third none) = some (.already, none, [.superseded]) ∧
    switched 6 (third (some (request (some 6)))) = some (.already, none, [.superseded]) := by
  refine ⟨?_, ?_, ?_, ?_, ?_, ?_, ?_⟩ <;> decide +kernel

theorem witness_SwitchSceneTurnsACrossfade :
    let s (r : Option Request) : State := crossing 64 r ready
    let with' (s : State) : State := { s with swu := { s.swu with pending := some (pendingFor (some 8)) } }
    switched 6 (s none) = some (.accepted, none, []) ∧
    switched 5 (s (some (request (some 6)))) = some (.already, none, [.superseded]) ∧
    switched 6 (with' (s none)) = some (.accepted, none, [.superseded]) ∧
    switched 5 (with' (s (some (request (some 6))))) = some (.already, none, [.superseded, .superseded]) ∧
    answer .switchScene (msg 22 6 [0x020101]) (s none) = some .accepted ∧
    (s none).liveScene = some 5 ∧ (s none).fadingScene = some 6 ∧ (s none).swu.stack = [] := by
  refine ⟨?_, ?_, ?_, ?_, ?_, ?_, ?_, ?_⟩ <;> decide +kernel

theorem witness_BaseSwitchRewritesSavedScenes :
    let s : State := withStack [entry (some 3) .momentary, entry none .tuner] (playing ready)
    let saved (m : Message) := (after .switchScene (withMsg m s)).map fun t => t.swu.stack.map (·.saved)
    answer .switchScene (msg 22 127 []) s = some .notPresent ∧
    saved (msg 22 127 []) = some [some 127, some 127] ∧
    saved (msg 22 255 [0x020000]) = some [none, none] := by decide +kernel

theorem witness_ReturnPopsTheTopEntry :
    let s (r : Reason) : State := withStack [entry none .momentary, entry (some 5) r] (playing ready)
    let pending : State := { s .tuner with swu := { (s .tuner).swu with pending := some (pendingFor (some 5)) } }
    answer .returnPop (msg 24 0 []) ready = some .stackEmpty ∧
    answer .returnPop (msg 24 0 []) (s .momentary) = some .already ∧
    answer .returnPop (msg 24 0 []) (s .tuner) = some .already ∧
    answer .returnPop (msg 24 0 []) pending = some .accepted ∧
    let third (s : State) : State := withStack [entry (some 8) .momentary] s
    answer .returnPop (msg 24 0 []) (third (playing ready)) = some .notPresent ∧
    answer .returnPop (msg 24 0 []) (third (slotted .ready false)) = some .accepted ∧
    answer .returnPop (msg 24 0 []) (third (slotted .ready true)) = some .busy ∧
    answer .returnPop (msg 24 0 [0]) ready = some .badLength := by decide +kernel

theorem witness_SwitchGateDispatches :
    let gate (g : Nat) (s : State) : Option Code := answer .switchGate (msg 23 g []) s
    let full : State := withStack (List.replicate 4 (entry none .momentary)) (gated ready)
    gate 0 ready = some .limit ∧ gate 128 (gated ready) = some .limit ∧
    gate 127 (gated ready) = some .limit ∧ gate 8 (gated ready) = some .limit ∧
    gate 7 (gated ready) = some .notPresent ∧ gate 2 (gated ready) = some .skipped ∧
    gate 3 (gated ready) = some .limit ∧ gate 6 (gated ready) = some .notPresent ∧
    gate 5 (gated ready) = some .stackEmpty ∧ gate 1 (gated ready) = some .ok ∧
    gate 1 full = some .stackFull ∧ gate 4 full = some .stackFull ∧
    answer .switchGate (msg 23 0 [0]) ready = some .badLength := by decide +kernel

/-- Scenes VALID, and gates from number 10 on with the limit behind them: 10 SCENE 5 on the bar, 11
MOMENTARY 5, 12 RETURN, 13 TUNER, 14 TOGGLE_STAGE 1, 15 the same of stage 4, 16 CUE_START 3 with 4 bars,
17 CUE_OP ADVANCE, 18 TAP, 19 SCENE at level 2, 20 SCENE with CUE_RUNNING and else gate 10, 21 MOMENTARY
127, 22 and 23 as 20 with the else gates 20 and 19. -/
def kinds (s : State) : State :=
  let gates : List Nat :=
    [0x801200, 0x050000, 0, 0x811000, 0x050000, 0, 0x821000, 0, 0, 0x831000, 0, 0,
     0x841000, 0x010000, 0, 0x841000, 0x040000, 0, 0x851000, 0x030400, 0, 0x861000, 0, 0,
     0x871000, 0, 0, 0x802000, 0x050000, 0, 0x801001, 0, 0x80000A, 0x811000, 0x7F0000, 0,
     0x801001, 0, 0x800014, 0x801001, 0, 0x800013]
  let t := (s.tbm.setValid .scene 5 true).writeEntry .gate 10 0 (gates.map payload)
  { s with tbm := { t with gateLimit := 24 } }

/-- The result of a dispatch by footswitch 2, with the saved scenes and the pending target behind it. -/
def dispatched (g : GateNo) (down : Bool) (s : State) :
    Code × List (Option SceneNo) × Option (Option SceneNo) :=
  let d : Dispatch := { source := .foot, switch := some 2, down := down, event := 0, tag := 0 }
  let r := (kinds s).dispatch d g
  (r.2, r.1.swu.stack.map (·.saved), r.1.swu.pending.map (·.req.target))

/-- R161, R163: the gates that switch and push; with the foot up a MOMENTARY gate acts as a SCENE gate. -/
theorem witness_SwitchGateDispatches_push :
    let full : State := withStack (List.replicate 4 (entry none .momentary)) ready
    dispatched 10 true ready = (.accepted, [], some (some 5)) ∧
    dispatched 10 true (withStack [entry none .tuner] ready) = (.accepted, [some 5], some (some 5)) ∧
    dispatched 11 true ready = (.accepted, [none], some (some 5)) ∧
    dispatched 11 false ready = (.accepted, [], some (some 5)) ∧
    dispatched 11 true full = (.stackFull, [none, none, none, none], none) ∧
    dispatched 21 true ready = (.notPresent, [], none) := by
  refine ⟨?_, ?_, ?_, ?_, ?_, ?_⟩ <;> decide +kernel

/-- R164, R168: the gates that pop, and a TUNER gate on an entry on top, on a lower one and on none. -/
theorem witness_SwitchGateDispatches_pop :
    let two (r : Reason) : State := withStack [entry none .momentary, entry (some 5) r] ready
    dispatched 12 true ready = (.stackEmpty, [], none) ∧
    dispatched 12 true (two .momentary) = (.accepted, [none], some (some 5)) ∧
    dispatched 13 true (two .tuner) = (.accepted, [none], some (some 5)) ∧
    dispatched 13 true (withStack [entry (some 5) .tuner, entry (some 3) .momentary] ready)
      = (.ok, [some 5], none) ∧
    dispatched 13 true ready = (.ok, [none], none) := by
  refine ⟨?_, ?_, ?_, ?_, ?_⟩ <;> decide +kernel

/-- R157, R163, R176, R184, R189: the refusals, the else gate and the gates that act as commands. -/
theorem witness_SwitchGateDispatches_commands :
    let code (g : GateNo) (s : State) : Code := (dispatched g true s).1
    let tapped (n : Nat) : State :=
      { ready with tck := { ready.tck with tapOpen := true, tapCount := n } }
    code 24 ready = .limit ∧ code 22 ready = .skipped ∧ code 23 ready = .level ∧ code 9 ready = .notPresent ∧ code 19 ready = .level ∧
    code 20 ready = .accepted ∧ code 14 (playing ready) = .ok ∧ code 15 (playing ready) = .range ∧
    code 14 ready = .notPresent ∧ code 16 (cued 1 0 ready) = .accepted ∧
    code 16 ready = .notPresent ∧ code 17 (cueAt .running 10 none none ready) = .accepted ∧
    code 17 (cueAt .held 10 (some .advance) none ready) = .already ∧ code 17 ready = .skipped ∧
    code 18 ready = .ok ∧ code 18 (tapped 11999) = .skipped ∧ code 18 (tapped 12000) = .ok ∧
    code 18 (tapped 144001) = .ok := by decide +kernel

theorem witness_StageEditsActOnTheLiveCopy :
    let set (a0 i v : Nat) : Option Code := answer .setParam (msg 30 a0 [i, v]) (playing ready)
    let toggle (a0 : Nat) : Option Code := answer .toggleStage (msg 32 a0 []) (playing ready)
    set 1 1 70000 = some .ok ∧ set 1 0 3 = some .range ∧ set 1 3 0 = some .range ∧
    set 3 9 1 = some .ok ∧ set 3 10 0 = some .range ∧ set 0 1 0 = some .range ∧
    set 4 0 0 = some .range ∧ answer .setParam (msg 30 1 [1, 0]) ready = some .notPresent ∧
    answer .setParam (msg 30 1 [1]) (playing ready) = some .badLength ∧ toggle 1 = some .ok ∧
    toggle 3 = some .ok ∧ toggle 0 = some .range ∧ toggle 4 = some .range ∧
    answer .toggleStage (msg 32 1 []) ready = some .notPresent ∧
    answer .toggleStage (msg 32 1 [0]) ready = some .badLength := by decide +kernel

/-- The table of R72 at its edges: a range each way, a signed coefficient, a structural word. -/
theorem witness_StageEditsActOnTheLiveCopy_table :
    paramClamp .mod 0 0 = 1 ∧ paramClamp .mod 2 2048 = 2047 ∧ paramClamp .delay 5 17 = 16 ∧
    paramValue .eq 0 0xFFFFFF = -1 ∧ paramValue .volume 0 0xFFFFFF = 16777215 ∧
    paramClass .amp 5 = .structural ∧ paramClass .amp 9 = .boundary ∧
    paramClass .amp 25 = .ramp := by decide +kernel

theorem witness_SettingsTakenOrRefused :
    answer .gateLimit (msg 14 128 []) ready = some .ok ∧
    answer .gateLimit (msg 14 129 []) ready = some .range ∧
    answer .gateLimit (msg 14 0 [0]) ready = some .badLength ∧
    (after .tailCfg (withMsg (msg 71 0 [0xFFFFFF, 0, 121]) ready)).map
      (fun t => (t.dlu.threshold, t.dlu.quietTime, t.dlu.limit)) = some (8388607, 1, 120) ∧
    answer .tailCfg (msg 71 0 [0, 0]) ready = some .badLength ∧
    answer .pedalCfg (msg 70 255 [1]) ready = some .ok ∧
    answer .pedalCfg (msg 70 0 [1]) ready = some .range ∧
    answer .pedalCfg (msg 70 1 []) ready = some .badLength ∧
    answer .meter (msg 41 16 []) ready = some .ok ∧ answer .meter (msg 41 17 []) ready = some .range ∧
    answer .meter (msg 41 0 []) ready = some .range ∧
    answer .meter (msg 41 1 [0]) ready = some .badLength ∧
    answer .click (msg 43 2 []) ready = some .ok ∧
    answer .click (msg 43 0 [32769, 65535]) ready = some .ok ∧
    answer .click (msg 43 3 [0, 0]) ready = some .range ∧
    answer .click (msg 43 0 [0]) ready = some .badLength := by decide +kernel

/-- 120.00, 20.00 and 240.00 BPM, and the two clamps (R174). -/
theorem witness_TempoSetsThePeriod :
    let s : State := { playing ready with tck := { ready.tck with phase := 7, clickMode := .on } }
    let period (w : Nat) (s : State) := (after .tempo (withMsg (msg 40 0 [w]) s)).map (·.tck.period)
    period 12000 s = some 24000 ∧ period 2000 ready = some 144000 ∧ period 0 s = some 144000 ∧
    period 24000 s = some 12000 ∧ period 65535 s = some 12000 ∧
    answer .tempo (msg 40 0 [12000]) s = some .ok ∧ answer .tempo (msg 40 0 [0]) ready = some .ok ∧
    answer .tempo (msg 40 0 []) ready = some .badLength := by decide +kernel

/-- R119: the SYNCED line takes 3/4 of the new period, the TAIL nothing; the answer is the one record. -/
theorem witness_TempoSetsThePeriod_lines :
    (after .tempo (withMsg (msg 40 0 [24000]) (synced ready))).map
      (fun t => (times t, t.cch.class2.length, t.cch.class3)) = some ([(5, 9000), (5, 5)], 1, []) := by
  decide +kernel

/-- The late half of a beat starts at half the period. -/
theorem witness_TapSeriesJudgesIntervals :
    let s (phase : Nat) : State := { ready with
      tck := { ready.tck with tapOpen := true, tapCount := 12000, phase := phase } }
    let beat (phase : Nat) := (after .tap (withMsg (msg 42 0 []) (s phase))).map (·.tck.beat)
    beat 11999 = some 1 ∧ beat 12000 = some 2 ∧ beat 0 = some 1 ∧
    answer .tap (msg 42 0 []) (s 12000) = some .ok ∧
    answer .tap (msg 42 0 [0]) ready = some .badLength := by decide +kernel

/-- R119, R177: a late tap of 16,000 frames: the SYNCED line, and the report with source, advance, one interval and
the period. -/
theorem witness_TapSeriesJudgesIntervals_report :
    let s := synced { ready with
      tck := { ready.tck with tapOpen := true, tapCount := 16000, phase := 12000 } }
    (after .tap (withMsg (msg 42 0 []) s)).map (fun t => (times t, t.cch.class3.map fun r => (r.tag, r.body))) =
      some ([(5, 12000), (5, 5)], [(7, [0b11_1_001_000011111010000000#24])]) := by decide +kernel

/-- R172, R179, R180, R185, R188, R190: in the middle of beat 1, what a TEMPO, and a tap in the early and in the
late half of the beat (which then is beat 2), leave of the sequencer and of the click. -/
theorem witness_TempoSetsThePeriod_boundary :
    let at' (c : Instr) (m : Message) (phase : Nat) (mode : ClickMode) (q : Csq) :=
      (after c (withMsg m { ready with
        csq := q
        tck := { ready.tck with phase := phase, clickMode := mode, tapOpen := true, tapCount := 12000 } })).map
        fun t => (t.csq.due, t.csq.remaining, t.csq.barsLeft, t.tck.burst)
    let tempo := at' .tempo (msg 40 0 [12000]) 7
    let early := at' .tap (msg 42 0 []) 7
    let late := at' .tap (msg 42 0 []) 12000
    let q (st : CueState) (op : Option HeldOp) : Csq :=
      { Csq.reset with state := st, current := some 10, heldOp := op, remaining := 2, barsLeft := 2 }
    let waits : Csq := { Csq.reset with waiting := some ⟨3, 10, 2, false⟩ }
    tempo .on (q .running none) = some (none, 2, 2, some .accent) ∧
    tempo .on (q .running (some .skip)) = some (some .heldSkip, 2, 2, none) ∧
    tempo .off (q .countIn none) = some (none, 2, 2, some .accent) ∧
    tempo .countInOnly waits = some (some .countInStart, 0, 0, none) ∧
    early .on (q .vamping none) = some (none, 2, 2, some .accent) ∧
    early .on (q .held (some .advance)) = some (some .heldAdvance, 2, 2, none) ∧
    early .off (q .running none) = some (none, 2, 2, none) ∧
    late .on (q .running none) = some (none, 1, 2, some .normal) ∧
    late .countInOnly (q .countIn none) = some (none, 2, 2, some .normal) ∧
    late .countInOnly waits = some (none, 0, 0, some .normal) ∧
    late .off waits = some (none, 0, 0, none) := by
  refine ⟨?_, ?_, ?_, ?_, ?_, ?_, ?_, ?_, ?_, ?_, ?_⟩ <;> decide +kernel

theorem witness_CueStartWaits :
    let waits : State := { cued 1 0 ready with csq := { ready.csq with waiting := some ⟨3, 10, 4, false⟩ } }
    let start (a0 : Nat) (body : List Nat) (s : State) := answer .cueStart (msg 50 a0 body) s
    start 3 [] (cued 1 0 ready) = some .accepted ∧ start 3 [4] waits = some .accepted ∧
    start 3 [4] (cueAt .running 10 none none (cued 1 0 ready)) = some .accepted ∧
    start 15 [] ready = some .notPresent ∧ start 16 [] ready = some .range ∧
    start 3 [5] waits = some .range ∧ start 3 [0, 0] waits = some .badLength := by decide +kernel

/-- R184, R189, R54: the list that a CUE_START ends in RUNNING with RESIDUE set and 2 of 8 beats left, in COUNT_IN,
and as a waiting start: its report under the old tag 9 behind the answer, and the residue. -/
theorem witness_CueStartWaits_ends :
    let started (q : Csq) := (after .cueStart (withMsg (msg 50 3 []) { cued 4 0 ready with csq := q })).map fun t =>
      (t.csq.waiting.map (·.fresh), t.csq.tag.toNat, t.tbm.word .cue 10 1, t.cch.class3)
    let at' (st : CueState) : Csq := { (cueAt st 10 none none ready).csq with tag := 9 }
    let report (beats : Nat) := [cueRecord 9 .ok 2 3 3 10 (some 5) beats false 0]
    started (at' .running) = some (some true, 7, payload (8 <<< 12 + 2), report 2) ∧
    started (at' .held) = some (some true, 7, payload (8 <<< 12 + 2), report 2) ∧
    started (at' .countIn) = some (some true, 7, payload (8 <<< 12), report 0) ∧
    started { Csq.reset with tag := 9, waiting := some ⟨3, 10, 2, false⟩ }
      = some (some true, 7, payload (8 <<< 12), report 0) := by
  refine ⟨?_, ?_, ?_, ?_⟩ <;> decide +kernel

theorem witness_CueOperationsByState :
    let s (st : CueState) (h : Option HeldOp) : State := cueAt st 10 h none (cued 1 0 ready)
    let op (c : Instr) (a0 : Nat) (s : State) : Option Code := answer c (msg 51 a0 []) s
    op .advance 0 (s .running none) = some .accepted ∧ op .advance 6 ready = some .range ∧
    op .advance 0 (s .held (some .advance)) = some .already ∧ op .advance 0 ready = some .skipped ∧
    op .skip 1 (s .vamping (some .advance)) = some .accepted ∧ op .skip 1 ready = some .skipped ∧
    op .vamp 2 (s .running none) = some .ok ∧ op .vamp 2 (s .held none) = some .skipped ∧
    op .hold 3 (s .vamping none) = some .ok ∧ op .hold 3 (s .held none) = some .skipped ∧
    op .resume 4 (s .held none) = some .ok ∧ op .resume 4 (s .running none) = some .skipped ∧
    op .stop 5 (s .held none) = some .ok ∧ op .stop 5 ready = some .skipped ∧
    answer .stop (msg 51 5 [0]) ready = some .badLength := by decide +kernel

/-- R189, R54: STOP of a start that waits, in COUNT_IN, and of a record with RESIDUE set of which 2 of 8 beats
remain; the last record reached, its scene and its beats stand in the report. -/
theorem witness_CueOperationsByState_stop :
    let m := msg 51 5 []
    let stopped (s : State) := (after .stop (withMsg m s)).map fun t =>
      (t.csq.state, t.csq.waiting.isSome, t.tbm.word .cue 10 1, t.cch.class3)
    let report (beats : Nat) := cueRecord 0 .ok 2 3 3 10 (some 5) beats false 0
    let waits : State :=
      { cued 1 0 ready with csq := { ready.csq with waiting := some ⟨3, 10, 4, false⟩ } }
    answer .stop m waits = some .ok ∧
    stopped waits = some (.idle, false, payload (8 <<< 12), [report 0]) ∧
    stopped (cueAt .countIn 10 none none (cued 4 0 ready))
      = some (.idle, false, payload (8 <<< 12), [report 0]) ∧
    stopped (cueAt .vamping 10 none none (cued 4 0 ready))
      = some (.idle, false, payload (8 <<< 12 + 2), [report 2]) := by
  refine ⟨?_, ?_, ?_, ?_⟩ <;> decide +kernel

theorem witness_TunerSettingsRestartTheWindow :
    let period (w : Nat) := (after .tunerRef (withMsg (msg 61 0 [w]) ready)).map (·.tun.reference)
    answer .tunerMode (msg 60 1 []) ready = some .ok ∧ answer .tunerMode (msg 60 0 []) ready = some .ok ∧
    answer .tunerMode (msg 60 2 []) ready = some .range ∧
    answer .tunerMode (msg 60 0 [0]) ready = some .badLength ∧
    period 0 = some 430 ∧ period 440 = some 440 ∧ period 451 = some 450 ∧
    answer .tunerRef (msg 61 0 [440]) ready = some .ok ∧
    answer .tunerRef (msg 61 0 []) ready = some .badLength ∧
    answer .tunerSource (msg 62 0 []) ready = some .ok ∧
    answer .tunerSource (msg 62 1 []) ready = some .ok ∧
    answer .tunerSource (msg 62 2 []) ready = some .ok ∧
    answer .tunerSource (msg 62 3 []) ready = some .range ∧
    answer .tunerSource (msg 62 0 [0]) ready = some .badLength := by decide +kernel

/-! ### Witnesses: the link, the channel and the frame -/

/-- The state after reset, settled, with the link in a state and its counts. -/
def linked (lock : LockState) (good bad : Nat) : State :=
  { State.reset with sli := { Sli.reset with lock := lock, good := good, bad := bad } }

def interval (clocks : Nat) (mark : Bool) : SyncInterval := ⟨clocks, mark, Vector.replicate 8 0⟩

/-- R16: in the first interval after the release each slot is driven 0 for as many bits as it has clocks; while
RESETN is low a PING waits. -/
theorem witness_ResetnHoldsAndReleases :
    let driven (n : Nat) := ((after .powerOnReset State.reset).bind (after (.syncIntervalEnd (interval n true)))).map
      fun t => t.sli.sdout.toList.map List.length
    driven 256 = some (List.replicate 8 32) ∧ driven 512 = some (List.replicate 8 32) ∧
    driven 63 = some [32, 31, 0, 0, 0, 0, 0, 0] ∧ driven 1 = some [1, 0, 0, 0, 0, 0, 0, 0] ∧
    ((after .resetnAssert ready).bind (after .ping)) = after .resetnAssert ready := by decide +kernel

/-- R3, R4, R6: 256 clocks to a mark are good, 255, 257 and 512 are not; the good count stops at 8 and the
second bad interval in a row keeps nothing for a frame. -/
theorem witness_SyncIntervalsJudged :
    let s (lock : LockState) (good bad : Nat) : State := linked lock good bad
    let good (n : Nat) (mark : Bool) (s : State) := (after (.syncIntervalEnd (interval n mark)) s).map (·.sli.good)
    let bad (n : Nat) (mark : Bool) (s : State) := (after (.syncIntervalEnd (interval n mark)) s).map
      fun t => (t.sli.bad, t.sli.received.isSome)
    (s .unlocked 7 0).Settled ∧ (s .locked 0 1).Settled ∧ (s .locked 0 1).frame.isOpen = false ∧
    good 256 true (s .unlocked 7 0) = some 8 ∧ good 255 true (s .unlocked 7 0) = some 0 ∧
    good 257 true (s .unlocked 7 0) = some 0 ∧ good 512 false (s .unlocked 7 0) = some 0 ∧
    bad 256 true (s .locked 0 1) = some (0, true) ∧ bad 255 true (s .locked 0 0) = some (1, true) ∧
    bad 257 true (s .locked 0 1) = some (2, false) ∧ bad 512 false (s .locked 0 1) = some (2, false) :=
  ⟨settled_of (by decide +kernel), settled_of (by decide +kernel), by decide +kernel⟩

/-- R3, R14: bit by bit, a slot cut short carries its first bits, none past clock 256 and none without a role;
the last word of the ACK of a SLOTMAP in full makes the switch-over due, cut short it does not. -/
theorem witness_SyncIntervalsJudged_driven :
    let f : Flight := { words := [0], ends := true }
    let l := linked .locked 0 0
    let s (ml : Bool) (f : Flight) : State := { l with
      sli := { l.sli with
        markless := ml, waiting := some SlotMap.powerOn, map := { SlotMap.powerOn with click := none }
        outbound := { OutWords.idle with fohR := -1 } }
      cch := { l.cch with flight := some f } }
    let driven (n : Nat) (ml : Bool) (k : Fin 8) := (after (.syncIntervalEnd (interval n true)) (s ml f)).map
      fun t => t.sli.sdout.get k
    let sent (n : Nat) (ml : Bool) (f : Flight) := (after (.syncIntervalEnd (interval n true)) (s ml f)).map
      (·.sli.ackSent)
    driven 256 false 1 = some (List.replicate 24 true ++ List.replicate 8 false) ∧
    driven 57 false 1 = some (List.replicate 24 true ++ [false]) ∧ driven 33 false 1 = some [true] ∧
    driven 32 false 1 = some [] ∧ driven 256 false 5 = some [] ∧ driven 256 true 1 = some [] ∧
    driven 300 false 7 = some (List.replicate 32 false) ∧
    sent 256 false f = some true ∧ sent 255 false f = some false ∧ sent 256 true f = some false ∧
    sent 256 false { f with words := [0, 0] } = some false ∧
    sent 256 false { f with ends := false } = some false := by
  refine ⟨?_, ?_, ?_, ?_, ?_, ?_, ?_, ?_, ?_, ?_, ?_, ?_⟩ <;> decide +kernel

/-- R8, R14, R36: with a frame open, its close starts the ACK of a SLOTMAP, which the interval sends. -/
theorem witness_SyncIntervalsJudged_open :
    let ack : Record := { kind := .ack, tag := 7, code := .ok, body := [], ends := true }
    let s : State := { ready with
      sli := { ready.sli with waiting := some SlotMap.powerOn }, cch := { ready.cch with class2 := [ack] } }
    let ended (n : Nat) := (after (.syncIntervalEnd (interval n true)) s).map fun t =>
      (t.sli.ackSent, t.cch.flight.isSome, t.cch.class2.length, t.sli.bad, t.sli.received.isSome)
    s.Settled ∧ s.frame.isOpen = true ∧ s.sli.lock = .locked ∧
    ended 256 = some (true, false, 0, 0, true) ∧ ended 255 = some (false, true, 0, 1, true) ∧
    (after (.syncIntervalEnd (interval 256 true)) s).map (fun t => (t.sli.sdout.get 7).take 8) =
      some ((wireBits (ack.words.headD 0)).take 8) :=
  ⟨settled_of (by decide +kernel), rfl, rfl, by decide +kernel, by decide +kernel, by decide +kernel⟩

theorem witness_LockEntersLocked :
    let s : State := { playing (linked .unlocked 8 0) with sce := (playing ready).sce }
    (s.sli.resetHeld = false ∧ s.sli.lock = .unlocked ∧ 8 ≤ s.sli.good) ∧
    (after .lock s).map (fun t => (t.sli.lock, t.sli.counter)) = some (.locked, 0) ∧
    (after .lock (synced (linked .unlocked 8 0))).map times = some [(5, 18000), (5, 5)] := by decide +kernel

theorem witness_LinkLossEntersUnlocked :
    let s : State := { crossing 64 none ready with sli := (linked .locked 0 2).sli }
    (s.sli.resetHeld = false ∧ s.sli.lock = .locked ∧ 2 ≤ s.sli.bad ∧ s.swu.crossfade.isSome) ∧
    (after .linkLoss s).map (fun t => (t.sli.lock, t.sli.good, t.swu.crossfade)) =
      some (.unlocked, 0, none) := by decide +kernel

/-- R122, R146: line 0 is kept with the values of the LIVE copy's DELAY stage, line 1 of the old scene
alone and the TAIL line 2 become FREE, line 3 with no stage in the LIVE copy is kept. -/
theorem witness_LinkLossEntersUnlocked_crossfade :
    let l : Line := { Line.free with state := .live, mem := [7, 8], current := 1, target := 1 }
    let lines : Vector Line 4 :=
      #v[{ l with owner1 := some 5, owner2 := some 6 }, { l with owner2 := some 6, tail := true },
        { l with state := .tail }, { l with owner1 := some 5 }]
    let s : State := { crossing 64 none ready with
      sli := (linked .locked 0 2).sli, dlu := { ready.dlu with lines := lines } }
    (after .linkLoss s).map (fun t => ((t.stg.slots.get 1).state, t.stg.readyOrder)) =
      some (.ready, [1]) ∧
    (after .linkLoss s).map (fun t => t.dlu.lines.toList.map fun l => (l.state, l.current, l.mem)) =
      some [(.live, 24000, []), (.free, 0, []), (.free, 0, []), (.live, 1, [])] := by decide +kernel

theorem witness_SlotMapChangesOnlyAtASwitchover :
    let map : SlotMap := { SlotMap.powerOn with click := none }
    let s : State := { ready with sli := { ready.sli with ackSent := true, waiting := some map } }
    s.Settled ∧ s.frame.isOpen = true ∧
    (after .slotmapSwitchover s).map (fun t => (t.sli.map, t.sli.waiting)) = some (map, none) :=
  ⟨settled_of (by decide +kernel), rfl, by decide +kernel⟩

/-- A message of 63 words open with 62 BODY words taken, over a FIFO filled to `n` words in all. -/
def assembling (bodies fill timeout : Nat) : Cch :=
  let m : Message := { len := 63, code := 10, tag := 7, a0 := 0, body := List.replicate bodies 0
                       damaged := false }
  { Cch.reset with
    asm := { Assembler.idle with
      assembling := true, len := 63, code := 10, tag := 7, bodies := bodies, timeout := timeout }
    tail := some m, fifo := List.replicate (fill - bodies - 1) (msg 1 0 []) }

/-- The words held before and after an arrival, whether the assembler is in ASSEMBLING, and the words dropped. -/
def fills (c : Cch) (w : ControlWord) : Nat × Nat × Bool × Nat :=
  (c.fill, (c.arrival w).fill, (c.arrival w).asm.assembling, (c.arrival w).counters.wordsDropped)

theorem witness_AssemblerOpensAndCompletes :
    let full (n : Nat) : Cch := { Cch.reset with fifo := List.replicate n (msg 1 0 []) }
    fills (full 127) (.head 0 1 7 0) = (127, 128, false, 0) ∧
    fills (full 0) (.head 63 1 7 0) = (0, 1, true, 0) ∧
    fills (full 128) (.head 63 1 7 0) = (128, 128, true, 1) ∧
    fills (assembling 61 62 0) (.body 61 5) = (62, 63, true, 0) ∧
    fills (assembling 62 127 0) (.body 62 5) = (127, 128, false, 0) ∧
    fills (assembling 61 128 0) (.body 61 5) = (128, 128, true, 1) ∧
    fills (assembling 0 1 0) .idle = (1, 1, true, 0) ∧
    ((full 95).arrival (.head 0 1 7 0)).hold = true ∧
    ((full 94).arrival (.head 0 1 7 0)).hold = false := by decide +kernel

/-- R31: HEAD and BODY words on a full FIFO. The complete messages, whether the last of them is damaged, and the
codes of the reports. -/
theorem witness_AssemblerOpensAndCompletes_full :
    let full : Cch := { Cch.reset with fifo := List.replicate 128 (msg 1 0 []) }
    let headless (n : Nat) : Cch :=
      let c := assembling n 128 0
      { c with asm := { c.asm with headless := true }, tail := none, fifo := full.fifo }
    let damaged (n : Nat) : Cch :=
      let c := assembling n 128 0
      { c with asm := { c.asm with damaged := true } }
    let seen (c : Cch) (w : ControlWord) :=
      let d := c.arrival w
      (d.asm.assembling, d.fifo.length - c.fifo.length, d.fifo.getLast?.map Message.damaged
        == some true, d.class1, d.counters.wordsDropped)
    let report (code : Nat) (bodies : Nat) : Record :=
      { kind := .fault, tag := 7, code := .overrun, body := [payload (code <<< 16 + bodies <<< 10 + 12)]
        ends := false }
    seen full (.head 0 1 7 0) = (false, 0, false, [report 1 0], 1) ∧
    seen (headless 61) (.body 61 5) = (true, 0, false, [], 1) ∧
    seen (headless 62) (.body 62 5) = (false, 0, false, [report 10 63], 1) ∧
    seen (damaged 61) (.body 61 5) = (true, 0, false, [], 1) ∧
    seen (damaged 62) (.body 62 5) = (false, 1, true, [], 1) ∧
    seen (assembling 62 128 0) (.body 62 5) = (false, 1, true, [], 1) := by
  refine ⟨?_, ?_, ?_, ?_, ?_, ?_⟩ <;> decide +kernel

theorem witness_AssemblyFailuresReported :
    let s (n : Nat) : State := { State.reset with cch := assembling 2 3 n }
    fills (assembling 2 3 0) (.body 3 0) = (3, 0, false, 0) ∧
    fills (assembling 2 3 0) (.head 1 1 7 0) = (3, 1, true, 0) ∧
    (Cch.reset.arrival (.body 0 0)).counters.fragments = 1 ∧
    (after .assemblyTimeout (s 480)).map (fun t => (t.cch.asm.assembling, t.cch.counters.timeouts))
      = some (false, 1) ∧
    (after .assemblyTimeout (s 479)).map (fun t => t.cch.counters.timeouts) = some 0 := by decide +kernel

theorem witness_AbortWithdrawsTheOpenMessage :
    fills (assembling 5 9 0) .abort = (9, 3, false, 0) ∧ Cch.reset.arrival .abort = Cch.reset := by
  decide +kernel

/-- A reply queue of `n` words: one DATA record. -/
def replies (n : Nat) : Cch :=
  { Cch.reset with class2 := [{ kind := .data, tag := 0, code := .ok, body := List.replicate (n - 1) 0
                                ends := false }] }

def tuneRecord : Record := { kind := .tune, tag := 0, code := .ok, body := [0, 0], ends := false }

theorem witness_TuneRecordReplacesTheWaitingOne :
    tuneRecord.kind = .tune ∧ ((replies 253).enqueue tuneRecord).class4 = [tuneRecord] ∧
    ((replies 254).enqueue tuneRecord).class4 = [] ∧
    ((replies 254).enqueue tuneRecord).counters.tuneDropped = 1 ∧
    ({ replies 254 with class4 := [pedalRecord 0 1 false] }.enqueue tuneRecord).class4 = [tuneRecord] := by
  decide +kernel

theorem witness_ReplyQueueByClass :
    let r : Record := pedalRecord 0 1 false
    let both : Cch := { Cch.reset with class1 := [r], class2 := [r], class3 := [r], class4 := [r] }
    ((replies 254).enqueue r).class3 = [r] ∧ ((replies 255).enqueue r).class3 = [] ∧
    ((replies 255).enqueue r).dropped = true ∧
    ((replies 1).enqueue { r with kind := .fault }).class1 = [{ r with kind := .fault }] ∧
    both.serialize.class1 = [] ∧ both.serialize.class2 = [r] ∧
    both.serialize.serialize = both.serialize ∧
    { both with class1 := [] }.serialize.class2 = [] ∧
    { both with class1 := [], class2 := [] }.serialize.class3 = [] ∧
    { both with class1 := [], class2 := [], class3 := [] }.serialize.class4 = [] := by decide +kernel

theorem witness_FrameEndShowsTheStatus :
    ready.Settled ∧ ready.frame = { FrameEnd.closed with isOpen := true } ∧ ready.pmn.events = [] ∧
    ready.cch.fifo = [] ∧ ready.sli.lock = .locked ∧ ready.sli.ackSent = false ∧
    ready.statusWord = 0b11111111_000_00_000_0000_0_0_0_0_0_0_0_0_0000#32 :=
  ⟨settled_of (by decide +kernel), by decide +kernel⟩

/-- A frame received in full whose GUITAR_A word carries the sample −2. -/
def receiving (n : Nat) : State :=
  let words := upd (Vector.replicate 8 (0 : Word32)) 0 0xFFFFFE00
  { State.reset with
    sli := { Sli.reset with
      lock := .locked, counter := BitVec.ofNat 32 n, received := some { full := 8, words := words } }
    sce := { Sce.reset with fade := 32768 } }

theorem witness_LockedFrameProcessed :
    let frame (o : FrameOrder) (n : Nat) := (after (.lockedFrame o) (receiving n)).map fun t =>
      (t.frame.blockDue, t.tck.phase, t.sli.outbound.direct, t.frame.lateControl)
    ((receiving 15).sli.resetHeld = false ∧ (receiving 15).sli.lock = .locked ∧
      (receiving 15).sli.received.isSome) ∧
    frame ⟨true, false⟩ 15 = some (true, 1, -2, some 0) ∧
    frame ⟨false, false⟩ 16 = some (false, 1, -2, none) ∧
    ({ full := 7, words := Vector.replicate 8 0x00000100 } : Received).sample (some 6) = 1 ∧
    ({ full := 7, words := Vector.replicate 8 0x00000100 } : Received).sample (some 7) = 0 := by
  decide +kernel

/-- A locked frame in a crossfade: line 0 shared, line 1 a TAIL with a tap fade in flight, the sample 16,384
from GUITAR_A, and EXPMAP entry 1 from pedal 1 to the pre-gain of stage 1. -/
def crossingFrame (pedal : Word32) : State :=
  let s := crossing 64 none (receiving 15)
  let l : Line := { Line.free with
    state := .live, mem := [0, 400000], current := 2, target := 2, wet := 16384, pan := 16384
    feedback := 16384 }
  let tail : Line := { l with state := .tail, current := 1, mem := [1000000, 0] }
  let words := upd (upd (Vector.replicate 8 (0 : Word32)) 0 0x00400000) 6 pedal
  { s with
    tbm := s.tbm.writeEntry .expmap 1 0 ([0x810101, 0, 1023].map payload)
    dlu := { s.dlu with lines :=
      #v[{ l with owner1 := some 5, owner2 := some 6 }, tail, Line.free, Line.free] }
    sli := { s.sli with received := some { full := 8, words := words } }
    pmn := { s.pmn with debounce := 0 } }

/-- R106, R110–R112: a quarter through the crossfade, with a blank shape the chains carry 0, line 0 reads
400,000 at its tap, and the TAIL reads 999,023 one frame into its tap fade, so that its wet output
and its feedback are 499,512. -/
theorem witness_LockedFrameProcessed_lines :
    (after (.lockedFrame ⟨false, false⟩) (crossingFrame 0)).map (fun t =>
        t.dlu.lines.toList.map fun l => (l.mem.take 2, l.position, l.peak)) =
      some [([200000, 0], 0, 0), ([499512, 1000000], 1, 499512), ([], 0, 0), ([], 0, 0)] ∧
    (after (.lockedFrame ⟨false, false⟩) (crossingFrame 0)).map (fun t => t.sli.outbound.fohL) =
      some 349756 := by decide +kernel

/-- R176, R178: the click sample of a frame by the burst position, the rise of the position and of the interval
count, and a FREE line with a change of time in it. -/
theorem witness_LockedFrameProcessed_click :
    let s (kind : BurstKind) (k : Nat) : State :=
      let s := receiving 3
      { s with tck := { s.tck with
          burst := some kind, burstPos := k, tapOpen := true, tapCount := 144000 + k } }
    let frame (kind : BurstKind) (k : Nat) := (after (.lockedFrame ⟨false, false⟩) (s kind k)).map fun t =>
      (t.sli.outbound.click, t.tck.burstPos, t.tck.tapCount)
    let free : Line := { Line.free with current := 5, target := 9, position := 3, mem := [1] }
    let lined : State := { receiving 3 with
      dlu := { (receiving 3).dlu with lines := upd (receiving 3).dlu.lines 2 free } }
    (receiving 3).tck.accentLevel = 32768 ∧ (receiving 3).tck.normalLevel = 16384 ∧
    frame .accent 0 = some (4194304, 1, 144001) ∧ frame .accent 15 = some (4063232, 16, 144001) ∧
    frame .accent 16 = some (-4054494, 17, 144001) ∧ frame .normal 23 = some (1996664, 24, 144001) ∧
    frame .normal 24 = some (-1992294, 25, 144001) ∧ frame .accent 479 = some (-8738, 480, 144001) ∧
    frame .accent 480 = some (0, 480, 144001) ∧
    (after (.lockedFrame ⟨false, false⟩) lined).map (fun t => t.dlu.lines.get 2) = some free := by
  refine ⟨?_, ?_, ?_, ?_, ?_, ?_, ?_, ?_, ?_, ?_⟩ <;> decide +kernel

/-- R148, R154, R155: the PEDAL reports of the two expression changes of a word, with reporting on, off, and behind
a press; the marks of a waiting start, a slot and a pending switch fall. -/
theorem witness_LockedFrameProcessed_reports :
    let s (on : Bool) (w : Word32) : State :=
      let s := crossingFrame w
      { s with
        csq := { s.csq with waiting := some ⟨3, 10, 4, true⟩ }
        pmn := { s.pmn with reporting := on, events := [] }
        stg := { s.stg with slots := upd s.stg.slots 2 { slotOf .queued 7 with fresh := true } }
        swu := { s.swu with pending := some { pendingFor (some 7) with fresh := true } } }
    let frame (on : Bool) (w : Word32) := (after (.lockedFrame ⟨false, false⟩) (s on w)).map fun t =>
      (t.cch.class3.map Record.body, t.pmn.last2)
    let both : Word32 := 0b0000_0000_0000_1111111111_0000000010#32
    frame true both = some ([[0xC40000 + 1023], [0xC80002]], 2) ∧ frame false both = some ([], 2) ∧
    frame true 0b1000_0000_0000_1111111111_0000000010#32 = some ([], 0) ∧
    (after (.lockedFrame ⟨true, true⟩) (s true both)).map (fun t =>
      (t.csq.waiting.map (·.fresh), (t.stg.slots.get 2).fresh, t.swu.pending.map (·.fresh),
        t.cch.class3.length)) = some (some false, false, some false, 2) := by
  refine ⟨?_, ?_, ?_, ?_⟩ <;> decide +kernel

/-- R148, R154, R88: a press in the word waits with the expression change behind it; a change alone is
taken at once and starts its map's ramp; a change of 1 is none. -/
theorem witness_LockedFrameProcessed_pedal :
    let frame (w : Word32) := (after (.lockedFrame ⟨false, false⟩) (crossingFrame w)).map fun t =>
      (t.pmn.events, t.pmn.last1, ((t.sce.live.bind (·.stages[0]?)).bind (·.params[1]?)).bind (·.change))
    frame 0b1000_0000_0000_1111111111_0000000000#32 =
      some ([.press 0, .expression false 1023], 0, none) ∧
    frame 0b0000_0000_0000_1111111111_0000000001#32 = some ([], 1023, some (.ramp 256 1023 0)) := by
  decide +kernel

/-- R32: a PING completed by the CONTROL word of the frame is taken at the end of that frame, in either
order of R30. -/
theorem test_message_completed_in_its_frame_is_taken :
    let s : State := { receiving 3 with sli := { (receiving 3).sli with
      received := some { full := 8
                         words := upd (Vector.replicate 8 0) 7 0b01_000000_00000001_00000111_00000000#32 } } }
    let taken (o : FrameOrder) := ((after (.lockedFrame o) s).bind
      (after (.syncIntervalEnd (interval 256 true)))).map fun t =>
        (t.cch.counters.executed, t.cch.fifo.length)
    taken ⟨true, false⟩ = some (1, 0) ∧ taken ⟨false, false⟩ = some (1, 0) := by decide +kernel

/-- R91: a sample counts for its peak when its slot is driven in full. -/
theorem test_peaks_follow_driven_samples :
    let l := linked .locked 0 0
    let s : State :=
      { l with sli := { l.sli with outbound := { OutWords.idle with fohL := -9, fohR := 8 } } }
    let peaks (n : Nat) := (after (.syncIntervalEnd (interval n true)) s).map fun t =>
      (t.sce.peakL, t.sce.peakR)
    peaks 64 = some (9, 8) ∧ peaks 63 = some (9, 0) ∧ peaks 31 = some (0, 0) := by decide +kernel

theorem witness_PassthroughFrame :
    let s : State := receiving 15
    (s.sce.live = none ∧ s.sce.fading = none ∧ (∀ l, s.dlu.lines.get l = Line.free) ∧
      s.swu.crossfade = none ∧ s.sli.received.isSome) ∧
    (after (.lockedFrame ⟨false, false⟩) s).map (fun t => (t.sli.outbound.fohL, t.sce.peakR))
      = some (-2, 0) := by decide +kernel

theorem witness_BlockBoundaryTaken :
    let held : Footswitch := { Footswitch.rest with state := .pressed, deferred := true, hold := 1 }
    let tail : Line := { Line.free with state := .tail, mem := [1], current := 1, target := 1 }
    let s (quiet age peak : Nat) : State := { ready with
      frame := { ready.frame with blockDue := true }
      pmn := { ready.pmn with switches := upd ready.pmn.switches 11 held }
      dlu := { ready.dlu with
        lines := upd ready.dlu.lines 3 { tail with quiet := quiet, age := age, peak := peak } }
      tun := { ready.tun with mode := .background, pacing := 255 } }
    let expired (quiet age peak : Nat) := (after .blockBoundary (s quiet age peak)).map fun t =>
      (t.dlu.lines.get 3).expiry
    (s 0 0 0).Settled ∧ (s 0 0 0).frame.isOpen = true ∧ (s 0 0 0).frame.blockDue = true ∧
    expired 374 0 63 = some true ∧ expired 373 0 63 = some false ∧ expired 374 0 64 = some false ∧
    expired 0 89999 64 = some true ∧ expired 0 89998 64 = some false ∧
    (after .blockBoundary (s 0 0 0)).map (fun t =>
      ((t.pmn.switches.get 11).hold, t.tun.pacing, t.tun.pacingDue)) = some (0, 0, true) :=
  ⟨settled_of (by decide +kernel), by decide +kernel⟩

/-- R74, R109, R120: the decisions of a noise gate of threshold 100 and hysteresis 20 at a block boundary,
and the values a LIVE line takes from its DELAY stage. -/
theorem witness_BlockBoundaryTaken_engine :
    let boundary (g : NoiseGate) : Option State :=
      let st : Stage := { Stage.ofRecord ⟨.gate, true, [100, 20, 2, 4, 3]⟩ with st := .gate g }
      let s := playing ready
      let l : Line := { Line.free with
        state := .live, owner1 := some 5, mem := [7], current := 9, target := 9 }
      let c := Copy.ofImage image
      after .blockBoundary { s with
        frame := { ready.frame with blockDue := true }
        dlu := { s.dlu with lines := upd s.dlu.lines 0 l }
        sce := { s.sce with live := some { c with stages := st :: c.stages } } }
    let decided (x : GateState) (gain peak : Nat) : Option (GateState × Nat × Nat × Nat) :=
      (boundary { NoiseGate.initial with
          st := x, gain := gain, hold := 4, peak := peak }).bind fun t =>
        (t.sce.live.bind (·.stages[0]?)).bind fun st =>
          match st.st with
          | .gate g => some (g.st, g.start.toNat, g.len, g.hold)
          | _ => none
    decided .closed 0 100 = some (.attack, 0, 2, 4) ∧ decided .closed 0 99 = some (.closed, 0, 0, 4) ∧
    decided .opened 32768 80 = some (.opened, 0, 0, 4) ∧
    decided .opened 32768 79 = some (.hold, 0, 0, 4) ∧
    decided .hold 32768 79 = some (.hold, 0, 0, 3) ∧
    decided .attack 9 79 = some (.release, 9, 3, 4) ∧
    decided .release 9 100 = some (.attack, 9, 2, 4) ∧
    (boundary NoiseGate.initial).map (fun t => ((t.dlu.lines.get 0).target, (t.dlu.lines.get 0).wet))
      = some (24000, 32767) := by
  refine ⟨?_, ?_, ?_, ?_, ?_, ?_, ?_, ?_⟩ <;> decide +kernel

theorem witness_RampReachesItsTarget :
    let p : Param := { set := 768, run := 256, change := some (.ramp 256 768 0), fresh := false }
    (p.run = 256 ∧ p.fresh = false ∧ p.change = some (.ramp 256 768 0)) ∧
    (Param.step^[1] p).run = 320 ∧ (Param.step^[7] p).run = 704 ∧ (Param.step^[8] p).run = 768 := by
  decide

/-- R85: a change made between two frames is not stepped at the boundary before the next frame, and is at the one
behind it; a boundary value that it replaces there is not taken (log 44). -/
theorem witness_RampReachesItsTarget_fresh :
    let p : Param := { set := 256, run := 256, change := none, fresh := false }
    let started := Param.startChange .drive 1 768 p
    paramClass .drive 1 = .ramp ∧ started.step = started ∧ started.run = 256 ∧
    ({ started with fresh := false } : Param).step.run = 320 ∧
    let waiting : Param := { p with change := some (.boundary 5) }
    let replaced := Param.startChange .eq 0 9 waiting
    paramClass .eq 0 = .boundary ∧ waiting.step.run = 5 ∧ replaced.step = replaced ∧ replaced.run = 256 ∧
    ({ replaced with fresh := false } : Param).step.run = 9 := by decide

/-! ### Witnesses: loader, crossfades, ends -/

/-- Scene 5 queued in slot 2. -/
def queued (t : Tbm) (demanded : Bool) : State :=
  { atBlock with
    tbm := t
    stg := { atBlock.stg with
      slots := upd atBlock.stg.slots 2 { slotOf .queued 5 with demanded := demanded }
      armQueue := [2] } }

theorem witness_LoaderPreparesASlot :
    let s : State := { atBlock with stg := { atBlock.stg with
      slots := upd atBlock.stg.slots 1 (slotOf .preparing 5) } }
    let took (s : State) := (after .loaderTake s).map fun t =>
      ((t.stg.slots.get 2).state, (t.stg.slots.get 2).remaining, t.cch.class3.length)
    (queued tables true).Settled ∧ s.Settled ∧
    (queued tables true).stg.loaderChoice = some 2 ∧ s.stg.prepared = some 1 ∧
    took (queued tables true) = some (.preparing, 3, 0) ∧
    took (queued (tables.setValid .ir 3 false) false) = some (.empty, 0, 1) ∧
    let failing : State :=
      let s := queued (tables.setValid .ir 3 false) true
      { s with swu := { s.swu with pending := some (pendingFor (some 5)) } }
    took failing = some (.empty, 0, 2) ∧
    (after .loaderTake failing).map (fun t => (t.swu.pending.isSome, t.cch.class3.map (·.code)))
      = some (false, [.notPresent, .notPresent]) ∧
    (after .preparationComplete s).map (fun t => ((t.stg.slots.get 1).state, t.stg.readyOrder))
      = some (.ready, [1]) :=
  ⟨settled_of (by decide +kernel), settled_of (by decide +kernel), by decide +kernel⟩

/-- R127, R128: the loader's choice among a demanded, an old and a fresh slot; none where a slot is PREPARING, a DISARM
has put it off, or every slot is fresh; and the preparation that completes, with no block remaining and with one. -/
theorem witness_LoaderPreparesASlot_chooses :
    let q (demanded fresh : Bool) : StgSlot :=
      { slotOf .queued 5 with demanded := demanded, fresh := fresh }
    let g (a b c : StgSlot) (waits : Bool) : Stg :=
      { slots := #v[a, b, c, StgSlot.vacant], armQueue := [2, 0, 1], readyOrder := [], loaderWaits := waits }
    let choice (a b c : StgSlot) (waits : Bool) := (g a b c waits).loaderChoice
    choice (q false false) (q true false) (q false false) false = some 1 ∧
    choice (q false false) (q true true) (q false false) false = some 2 ∧
    choice (q false false) (q false false) (q false true) false = some 0 ∧
    choice (q false true) (q true true) (q false true) false = none ∧
    choice (q false false) (q true false) (q false false) true = none ∧
    choice (q false false) (q true false) (slotOf .preparing 6) false = none ∧
    (g (q false false) (q false false) (slotOf .preparing 6) false).prepared = some 2 ∧
    (g (q false false) (q false false) { slotOf .preparing 6 with remaining := 1 } false).prepared = none := by
  decide +kernel

/-- R132: scene 6 in preparation in slot 1 and scene 5 QUEUED in slot 2. A DISARM of slot 1 before the step
BLOCK_BOUNDARY lets the loader take at it; one behind it keeps the loader waiting, to the end of the frame too,
until the next boundary. -/
theorem witness_LoaderPreparesASlot_disarmed :
    let both : State := queued tables false
    let s : State := { withMsg (msg 21 0 [0x010001]) both with
      frame := { ready.frame with blockDue := true }
      stg := { both.stg with slots := upd both.stg.slots 1 { slotOf .preparing 6 with remaining := 5 } } }
    let run (cs : List Instr) (s : Option State) := cs.foldl (fun t c => t.bind (after c)) s
    let seen (s : Option State) := s.map fun t =>
      ((t.stg.slots.get 1).state, (t.stg.slots.get 2).state, t.stg.loaderWaits)
    let closed := run [.blockBoundary, .disarm, .loaderTake, .syncIntervalEnd (interval 256 true)] (some s)
    let next := (run [.lockedFrame ⟨false, false⟩] closed).map fun t => { t with frame := s.frame }
    answer .disarm (msg 21 0 [0x010001]) s = some .ok ∧
    seen (run [.disarm, .blockBoundary, .loaderTake] (some s)) = some (.empty, .preparing, false) ∧
    seen (run [.blockBoundary, .disarm] (some s)) = some (.empty, .queued, true) ∧
    (run [.blockBoundary, .disarm] (some s)).any (fun t => t.quiet && t.cch.outbox.isEmpty) = true ∧
    seen closed = some (.empty, .queued, true) ∧
    seen (run [.blockBoundary, .loaderTake] next) = some (.empty, .preparing, false) := by
  refine ⟨?_, ?_, ?_, ?_, ?_, ?_⟩ <;> decide +kernel

/-- Scene 5 LIVE in slot 0 and scene 6 in slot 1, for which a switch is pending. -/
def starting (st : SlotState) (passed : Bool) : State :=
  let s := playing atBlock
  { s with
    stg := { s.stg with slots := upd s.stg.slots 1 (slotOf st 6), readyOrder := [1] }
    swu := { s.swu with pending := some { pendingFor (some 6) with passed := passed } } }

theorem witness_CrossfadeStarts :
    let started (s : State) := (after .crossfadeStart s).map fun t =>
      ((t.stg.slots.get 0).state, (t.stg.slots.get 1).state, t.swu.crossfade.map (·.length),
        t.frame.tested)
    (starting .ready true).Settled ∧ (starting .ready true).frame.tested = false ∧
    (starting .ready true).swu.crossfade = none ∧
    (starting .ready true).stg.holding 6 = some 1 ∧ image.record.fadeCode = 2 ∧
    started (starting .ready true) = some (.fading, .live, some 128, false) ∧
    started (starting .ready false) = some (.live, .ready, none, true) ∧
    started (starting .preparing true) = some (.live, .preparing, none, true) :=
  ⟨settled_of (by decide +kernel), rfl, rfl, by decide +kernel, rfl, by decide +kernel,
    by decide +kernel, by decide +kernel⟩

/-- R113, R140, R143: the length of a crossfade to NONE and of one with an override, and a cut, which completes
at once; a FREE line bound, a LIVE one shared, a TAIL adopted and two lines left to the old scene. -/
theorem witness_CrossfadeStarts_lines :
    let delay (n time tail : Nat) : StageRecord :=
      ⟨.delay, true, [n, 0, 0, time, 1, 1, 0, 200, 0, tail].map payload⟩
    let incoming (ns : List Nat) : Image :=
      { image with record := { image.record with stages := ns.map fun n => delay n 9 1 } }
    let l : Line := { Line.free with
      state := .live, owner1 := some 5, mem := [7, 8], current := 3, target := 3, tail := true }
    let s (target : Option SceneNo) (o : Option (Fin 8)) (ns : List Nat) : State :=
      let s := starting .ready true
      { s with
        swu := { s.swu with
          pending := some { pendingFor target with req := { request target with override := o } } }
        stg := { s.stg with slots := upd s.stg.slots 1 { slotOf .ready 6 with image := some (incoming ns) } }
        dlu := { s.dlu with lines :=
          #v[l, Line.free, { l with state := .tail, owner1 := none, age := 5 }, { l with tail := false }] } }
    let fade (s : State) := (after .crossfadeStart s).map fun t =>
      (t.stg.slots.toList.map (·.state), t.stg.readyOrder, t.swu.crossfade.map (·.length), t.cch.class3.length)
    let lines (s : State) : Option (List (LineState × Option SceneNo × Option SceneNo × List Nat)) :=
      (after .crossfadeStart s).map fun t =>
        t.dlu.lines.toList.map fun l => (l.state, l.owner1, l.owner2, [l.mem.length, l.current, l.target])
    (s none none []).Settled ∧
    fade (s none none []) = some ([.fading, .ready, .empty, .empty], [1], some 256, 0) ∧
    fade (s none (some 1) []) = some ([.fading, .ready, .empty, .empty], [1], some 64, 0) ∧
    fade (s none (some 0) []) = some ([.ready, .ready, .empty, .empty], [0, 1], none, 1) ∧
    fade (s (some 6) (some 0) []) = some ([.ready, .live, .empty, .empty], [0], none, 1) ∧
    lines (s (some 6) none [0, 1, 2]) = some [(.live, some 6, some 5, [2, 3, 9]),
      (.live, some 6, none, [0, 9, 9]), (.live, some 6, none, [2, 3, 9]),
      (.live, none, some 5, [2, 3, 3])] ∧
    lines (s (some 6) (some 0) [1]) = some [(.tail, none, none, [2, 3, 24000]),
      (.live, some 6, none, [0, 9, 9]), (.tail, none, none, [2, 3, 3]), (.free, none, none, [0, 0, 0])] := by
  refine ⟨settled_of (by decide +kernel), ?_, ?_, ?_, ?_, ?_, ?_⟩ <;> decide +kernel

/-- R68, R69, R140: the new working copy holds the words of the image, with a bypassed stage at gain 0 and every
stage state at its start; and the length of each fade code. -/
theorem witness_CrossfadeStarts_copy :
    let words (ws : List Nat) : List Word24 := ws.map payload
    let im : Image :=
      { record :=
          { inputSelect := 1, fadeCode := 7, level := 9
            stages := [⟨.eq, false, words [0xFFFFFF, 2, 3, 4, 5]⟩, ⟨.gate, true, words [0xFFFFFF, 1, 2, 3, 4]⟩] }
        taps := [] }
    let s (fade : Nat) : State :=
      let s := starting .ready true
      let im : Image := { im with record := { im.record with fadeCode := payload fade } }
      { s with stg := { s.stg with slots := upd s.stg.slots 1 { slotOf .ready 6 with image := some im } } }
    let seen (fade : Nat) := (after .crossfadeStart (s fade)).bind fun t => t.swu.crossfade.map (·.length)
    let param (w : Nat) (n : Int) : Param := { set := payload w, run := n, change := none, fresh := false }
    (after .crossfadeStart (s 7)).bind (·.sce.live) =
      some { inputSelect := 1, fadeCode := 7, level := 9, taps := [], edited := false,
             stages := [
               { kind := .eq, enabled := false, gain := 0, clips := 0, st := .eq Biquad.zero,
                 params := param 0xFFFFFF (-1) :: [2, 3, 4, 5].map fun n => param n n },
               { kind := .gate, enabled := true, gain := 32768, clips := 0,
                 st := .gate ⟨.opened, 32768, 0, 0, 0, 0, 0⟩,
                 params := param 0xFFFFFF 16777215 :: [1, 2, 3, 4].map fun n => param n n }] } ∧
    [1, 2, 3, 4, 5, 6, 7].map seen =
      [some 64, some 128, some 256, some 512, some 1024, some 2048, some 4096] := by
  refine ⟨?_, ?_⟩ <;> decide +kernel

/-- R113, R120, R143: a cut to a scene whose DELAY stage references a line with a next time held: the new time is
held in its place behind the tap fade in flight. -/
theorem witness_CrossfadeStarts_held :
    let delay : StageRecord := ⟨.delay, true, [0, 0, 0, 9, 1, 1, 0, 200, 0, 1].map payload⟩
    let s := starting .ready true
    let s : State := { s with
      swu := { s.swu with
        pending := some { pendingFor (some 6) with req := { request (some 6) with override := some 0 } } }
      stg := { s.stg with slots := upd s.stg.slots 1 { slotOf .ready 6 with
        image := some { image with record := { image.record with stages := [delay] } } } }
      dlu := { s.dlu with lines := upd s.dlu.lines 0 { Line.free with
        state := .live, owner1 := some 5, mem := [7, 8], current := 3, target := 4, held := some 11 } } }
    s.Settled ∧ s.SlotsLegal ∧ s.InRange ∧
    (after .crossfadeStart s).map (fun t => ((t.dlu.lines.get 0).owner1, (t.dlu.lines.get 0).owner2,
      (t.dlu.lines.get 0).target, (t.dlu.lines.get 0).held, t.swu.crossfade.isSome)) =
      some (some 6, none, 4, some 9, false) := by
  intro delay s₀ s
  refine ⟨settled_of (by decide +kernel), ⟨?_, by decide +kernel, by decide +kernel, by decide +kernel⟩,
    ⟨by decide, by decide, (by intro x h; cases h), by decide +kernel, by decide +kernel, by decide⟩,
    by decide +kernel⟩
  have h : ∀ i j : SlotNo, i ≠ j → (s.stg.slots.get i).scene ≠ none →
      (s.stg.slots.get i).scene ≠ (s.stg.slots.get j).scene := by decide +kernel
  intro i j n hi hj
  by_contra hij
  exact h i j hij (by simp [hi]) (hi.trans hj.symm)

theorem witness_ReversalExchangesTheParties :
    let s : State := crossing 64 (some (request (some 6))) atBlock
    s.Settled ∧ s.frame.atBlock = true ∧
    (after .reversal s).map (fun t => ((t.stg.slots.get 0).state, (t.stg.slots.get 1).state,
      t.swu.crossfade.map (·.elapsed))) = some (.fading, .live, some 192) :=
  ⟨settled_of (by decide +kernel), rfl, by decide +kernel⟩

/-- The same crossfade, with a line that the DELAY stages of both copies reference: the FADING copy's hands it a
time of 9, a feedback of 3 and a wet level of 4. -/
def sharing (elapsed : Nat) (rev : Option Request) : State :=
  let s := crossing elapsed rev atBlock
  let delay : StageRecord := ⟨.delay, true, [0, 0, 0, 9, 1, 1, 3, 4, 0, 0].map payload⟩
  { s with
    sce := { s.sce with
      fading := some (Copy.ofImage { image with record := { image.record with stages := [delay] } }) }
    dlu := { s.dlu with lines := upd s.dlu.lines 0 { Line.free with
      state := .live, owner1 := some 5, owner2 := some 6, mem := [7], current := 5, target := 5 } } }

/-- R109, R115: the line takes the values of the stage that governs it once the copies have changed roles. -/
theorem witness_ReversalExchangesTheParties_line :
    let seen (t : Option State) := t.map fun t =>
      let l := t.dlu.lines.get 0
      (l.owner1, l.owner2, l.target, l.feedback, l.wet)
    (sharing 64 (some (request (some 6)))).Settled ∧
    seen (after .reversal (sharing 64 (some (request (some 6))))) = some (some 6, some 5, 9, 3, 4) ∧
    seen (after .crossfadeComplete (sharing 256 none)) = some (some 5, none, 24000, 16384, 32767) :=
  ⟨settled_of (by decide +kernel), by decide +kernel, by decide +kernel⟩

/-- R143, log 11: a reversal request made in the last frame of the crossfade is not taken: the crossfade completes,
and its report has SUPERSEDED for the request behind. -/
theorem witness_CrossfadeCompletes_late :
    let s : State :=
      let s := sharing 256 (some (request (some 6)))
      { s with swu := { s.swu with
        crossfade := s.swu.crossfade.map fun x => { x with reversalFresh := true } } }
    s.Settled ∧ after .reversal s = some s ∧
    (after .crossfadeComplete s).map (fun t => (t.swu.crossfade, t.cch.class3)) =
      some (none, [switchRecord (request (some 5)) .ok (some 6) (some 5) false false,
        switchRecord (request (some 6)) .superseded (some 5) (some 6) false false]) :=
  ⟨settled_of (by decide +kernel), by decide +kernel, by decide +kernel⟩

theorem witness_CrossfadeCompletes :
    let line (s : State) (tail : Bool) : State := { s with dlu := { s.dlu with
      lines := upd s.dlu.lines 1 { Line.free with
        state := .live, owner2 := some 6, tail := tail, mem := [1], current := 1, target := 1 } } }
    let done (s : State) := (after .crossfadeComplete s).map fun t =>
      (t.swu.crossfade, t.stg.readyOrder, (t.dlu.lines.get 1).state)
    (line (crossing 256 none atBlock) true).Settled ∧
    done (line (crossing 256 none atBlock) true) = some (none, [1], .tail) ∧
    done (line (crossing 256 none atBlock) false) = some (none, [1], .free) ∧
    (after .crossfadeComplete (crossing 255 none atBlock)).map (fun t => t.swu.crossfade.isSome)
      = some true :=
  ⟨settled_of (by decide +kernel), by decide +kernel⟩

/-- R201: the window at a crossfade start, at a cut to NONE and at a reversal, by the source, the mode and a TUNER
entry. -/
theorem witness_CrossfadeStarts_tuner :
    let tuned (source : TunerSetting) (mode : TunerMode) (s : State) : State :=
      { s with tun := { s.tun with source := source, mode := mode, index := 7, periods := [5], pacing := 9 } }
    let cut : State :=
      let s := starting .ready true
      { s with swu := { s.swu with
        pending := some { pendingFor none with req := { request none with override := some 0 } } } }
    let seen (t : Option State) := t.map fun t => (t.tun.index, t.tun.periods, t.tun.pacing)
    let start (x : TunerSetting) (m : TunerMode) (s : State) := seen (after .crossfadeStart (tuned x m s))
    let turn (x : TunerSetting) (m : TunerMode) (s : State) := seen (after .reversal (tuned x m s))
    let engaged := withStack [entry none .tuner]
    let held : State := crossing 64 (some (request (some 6))) atBlock
    start .follow .background (starting .ready true) = some (0, [], 9) ∧
    start .follow .background cut = some (0, [], 9) ∧ start .follow .off cut = some (7, [5], 9) ∧
    start .follow .off (engaged (starting .ready true)) = some (0, [], 9) ∧
    start .a .background (starting .ready true) = some (7, [5], 9) ∧
    turn .follow .background held = some (0, [], 9) ∧ turn .follow .off held = some (7, [5], 9) ∧
    turn .follow .off (engaged held) = some (0, [], 9) ∧ turn .b .background held = some (7, [5], 9) := by
  refine ⟨?_, ?_, ?_, ?_, ?_, ?_, ?_, ?_, ?_⟩ <;> decide +kernel

theorem witness_RampsFadesAndTailsEnd :
    let gate (g : NoiseGate) : State :=
      let st : Stage := { Stage.ofRecord ⟨.gate, true, [100, 0, 2, 0, 3]⟩ with st := .gate g }
      { ready with sce := { ready.sce with
          live := some { Copy.ofImage image with stages := [st] } } }
    let ends (c : Instr) (g : NoiseGate) := (after c (gate g)).bind fun t =>
      (t.sce.live.bind (·.stages[0]?)).map (·.st)
    let g : NoiseGate := { NoiseGate.initial with peak := 5 }
    let line : Line := { Line.free with state := .live, current := 5, target := 7, position := 1024
                                        held := some 9 }
    let fading : State := { ready with dlu := { ready.dlu with lines := upd ready.dlu.lines 2 line } }
    let dying : State := { atBlock with dlu := { ready.dlu with
      lines := upd ready.dlu.lines 2 { Line.free with state := .tail, expiry := true } } }
    ends (.noiseGateHoldEnd .live 0) { g with st := .hold, hold := 0 } =
      some (.gate { g with st := .release, hold := 0, start := 32768, len := 3 }) ∧
    ends (.noiseGateRampEnd .live 0) { g with st := .attack, len := 2, k := 32 } =
      some (.gate { g with st := .opened, len := 2, k := 32 }) ∧
    ends (.noiseGateRampEnd .live 0) { g with st := .release, len := 3, k := 47 } =
      some (.gate { g with st := .release, len := 3, k := 47 }) ∧
    ends (.noiseGateRampEnd .live 0) { g with st := .release, gain := 0, len := 0, k := 1 } =
      some (.gate { g with st := .closed, gain := 0, len := 0, k := 1 }) ∧
    (after (.tapFadeEnd 2) fading).map (fun t => ((t.dlu.lines.get 2).current, (t.dlu.lines.get 2).target))
      = some (7, 9) ∧
    dying.Settled ∧ (after (.tailExpiry 2) dying).map (fun t => t.dlu.lines.get 2) = some Line.free :=
  ⟨by decide +kernel, by decide +kernel, by decide +kernel, by decide +kernel, by decide +kernel,
    settled_of (by decide +kernel), by decide +kernel⟩

theorem witness_StageAndMixArithmetic :
    (0 : Int) ≤ 1 ∧ (1 : Int) ≤ 32768 ∧ crossMix 8388607 (-8388608) 1 = -8388096 ∧
    (0 : Int) ≤ 4096 ∧ (4096 : Int) ≤ 32767 ∧ envelope 4096 512 0 (-8388608) = 1048576 := by decide

/-- R73, R76: half-way through an ATTACK of 2 blocks from 0, a RELEASE of length 0, and a MOD stage at 20 Hz, depth
1,024 and base delay 16 in frame 1 of its LFO, whose delay is 16 frames and 216/256. -/
theorem witness_StageAndMixArithmetic_stages :
    let f : FrameIn := { a := 0, b := 0, ret := 0, tbm := Tbm.blank }
    let stage (k : StageKind) (ps : List Nat) (x : StageState) : Stage :=
      { Stage.ofRecord ⟨k, true, ps.map payload⟩ with st := x }
    let run (st : Stage) (x : Int) := let p := st.process f [] x; (p.st, p.p, p.clips)
    let g : NoiseGate := { NoiseGate.initial with gain := 7, peak := 5 }
    run (stage .gate [0, 0, 9, 0, 9] (.gate { g with st := .attack, len := 2, k := 15 })) (-1001) =
      (.gate { g with st := .attack, gain := 16384, peak := 1001, len := 2, k := 16 }, -500, 0) ∧
    run (stage .gate [0, 0, 9, 0, 9] (.gate { g with st := .release, start := 9 })) 4 =
      (.gate { g with st := .release, start := 9, gain := 0, k := 1 }, 0, 0) ∧
    run (stage .mod [2000, 1024, 16, 32768, 16384] (.mod (List.replicate 15 0 ++ [100, 356]) 1)) 1000 =
      (.mod (1158 :: List.replicate 15 0 ++ [100, 356]) 2, 316, 0) := by
  refine ⟨?_, ?_, ?_⟩ <;> decide +kernel

/-! ### Witnesses: footswitches, the clock and the cues -/

/-- The state with FOOTMAP entry 2 holding word 0, hold code 40 and reporting on, and an event waiting. -/
def footed (w0 : Nat) (x : Footswitch) (e : List PedalEvent) (s : State) : State :=
  { s with
    tbm := s.tbm.writeEntry .footmap 2 0 [payload w0, payload 40]
    pmn := { s.pmn with switches := upd s.pmn.switches 2 x, reporting := true, events := e } }

theorem witness_FootswitchPressed :
    let pressed (w0 : Nat) := (after (.footswitchPress 2) (footed w0 Footswitch.rest [.press 2] ready)).map
      fun t => ((t.pmn.switches.get 2).deferred, (t.pmn.switches.get 2).hold, t.cch.class3.length)
    (footed 0x850083 Footswitch.rest [.press 2] ready).Settled ∧
    pressed 0x850083 = some (true, 6000, 1) ∧ pressed 0 = some (false, 0, 1) ∧
    pressed 0x850000 = some (false, 0, 2) :=
  ⟨settled_of (by decide +kernel), by decide +kernel⟩

/-- R148: two switches in one word, the press of 2 and the release of 3: each is taken in its turn. -/
theorem witness_FootswitchesInTurn :
    let s (es : List PedalEvent) := footed 0 Footswitch.rest es ready
    let ran (cs : List Instr) (es : List PedalEvent) :=
      (cs.foldl (fun (t : Option State) c => t.bind (after c)) (some (s es))).map fun t =>
        (t.pmn.events, t.cch.class3.map Record.body)
    (s [.press 2, .release 3]).Settled ∧
    ran [.footswitchPress 2] [.press 2, .release 3] = some ([.release 3], [[0x080000]]) ∧
    ran [.footswitchPress 2, .footswitchRelease 3] [.press 2, .release 3] =
      some ([], [[0x080000], [0x8C0000]]) ∧
    ran [.footswitchRelease 3] [.press 2, .release 3] = some ([.press 2, .release 3], []) ∧
    ran [.footswitchRelease 3] [.release 3, .press 4] = some ([.press 4], [[0x8C0000]]) :=
  ⟨settled_of (by decide +kernel), by decide +kernel⟩

theorem witness_HoldEventTaken :
    let x : Footswitch := { Footswitch.rest with state := .pressed, deferred := true }
    let due (s : State) := s.pmn.nextHold
    (footed 0x000083 x [] atBlock).Settled ∧ due (footed 0x000083 x [] atBlock) = some 2 ∧
    due (footed 0 { x with hold := 1 } [] atBlock) = none ∧
    (after (.holdEvent 2) (footed 0 x [] atBlock)).map (fun t => ((t.pmn.switches.get 2).state,
      t.cch.class3)) = some (.held, [pedalRecord 1 2 false]) :=
  ⟨settled_of (by decide +kernel), by decide +kernel⟩

theorem witness_FootswitchReleased :
    let x : Footswitch := { Footswitch.rest with state := .pressed }
    let s (x : Footswitch) : State := footed 0 x [.release 2] ready
    let owned : State := { s x with swu :=
      { pending := some (pendingFor none), crossfade := none
        stack := [{ entry none .momentary with owner := some 2 }] } }
    let released (s : State) := (after (.footswitchRelease 2) s).map fun t =>
      ((t.pmn.switches.get 2).state, t.swu.stack.length)
    (s x).Settled ∧ owned.Settled ∧ released (s x) = some (.released, 0) ∧
    released (s { x with state := .held }) = some (.released, 0) ∧
    released (s { x with deferred := true }) = some (.released, 0) ∧ released owned = some (.released, 0) :=
  ⟨settled_of (by decide +kernel), settled_of (by decide +kernel), by decide +kernel⟩

/-- R151–R153, R166: the dispatches of the footswitch events. Press gate 11 pushes, hold gate 13 engages
the tuner, release gate 10 and the short press of gate 10 switch; an owner release of the top entry requests
its scene and leaves a plain release gate alone, with a short press its gate 14 is dispatched behind it;
one of a lower entry hands its saved scene up. -/
theorem witness_FootswitchesDispatch :
    let pressed : Footswitch := { Footswitch.rest with state := .pressed }
    let short : Footswitch := { pressed with deferred := true }
    let own : StackEntry := { entry (some 5) .momentary with owner := some 2 }
    let seen (t : Option State) := t.map fun t =>
      (t.swu.stack.map (·.saved), t.swu.pending.map (·.req.target), t.cch.class3.map (·.kind))
    let release (w0 : Nat) (x : Footswitch) (es : List StackEntry) :=
      seen (after (.footswitchRelease 2) (footed w0 x [.release 2] (withStack es (kinds ready))))
    seen (after (.footswitchPress 2) (footed 0x8B0000 Footswitch.rest [.press 2] (kinds ready))) =
      some ([none], some (some 5), [.pedal]) ∧
    seen (after (.holdEvent 2) (footed 0x00008D short [] (kinds atBlock))) =
      some ([none], none, [.pedal]) ∧
    release 0x008A00 pressed [] = some ([], some (some 5), [.pedal]) ∧
    release 0x8A0080 short [] = some ([], some (some 5), [.pedal]) ∧
    release 0x008A00 pressed [own] = some ([], some (some 5), [.pedal]) ∧
    release 0x8E0080 short [own] = some ([], some (some 5), [.pedal, .gate]) ∧
    release 0 pressed [own, entry none .tuner] = some ([some 5], none, [.pedal]) := by
  refine ⟨?_, ?_, ?_, ?_, ?_, ?_, ?_⟩ <;> decide +kernel

/-- R148, R154, R155: two expression changes of a word behind a press or a release of switch 2 are taken with it,
each with its report; behind a press whose gate 18 moves the beat on and ends a cue, they wait for the end. -/
theorem witness_FootswitchesWithChanges :
    let es : List PedalEvent := [.expression false 600, .expression true 700, .press 4]
    let pressed : Footswitch := { Footswitch.rest with state := .pressed }
    let seen (t : Option State) := t.map fun t =>
      (t.pmn.last1, t.pmn.last2, t.pmn.events.length, t.cch.class3)
    let press (w0 : Nat) (s : State) :=
      seen (after (.footswitchPress 2) (footed w0 Footswitch.rest (.press 2 :: es) s))
    let reports (r : Record) : List Record := [r, expressionRecord 1 600, expressionRecord 2 700]
    let moving : State :=
      let s := cueAt .running 10 none none (cued 0 0 (kinds ready))
      { s with
        tck := { s.tck with tapOpen := true, tapCount := 24000, phase := 20000 }
        csq := { s.csq with remaining := 1 } }
    (footed 0 Footswitch.rest (.press 2 :: es) ready).Settled ∧
    press 0 ready = some (600, 700, 1, reports (pedalRecord 0 2 false)) ∧
    press 0x8B0000 (kinds ready) = some (600, 700, 1, reports (pedalRecord 0 2 false)) ∧
    seen (after (.footswitchRelease 2) (footed 0 pressed (.release 2 :: es) ready)) =
      some (600, 700, 1, reports (pedalRecord 2 2 false)) ∧
    (press 0x920000 moving).map (fun x => (x.1, x.2.2.1)) = some (0, 3) ∧
    expressionRecord 1 600 = { pedalRecord 0 1 false with body := [0xC40000 + 600] } := by
  refine ⟨settled_of (by decide +kernel), ?_, ?_, ?_, ?_, ?_⟩ <;> decide +kernel

/-- The beat boundary falls with the phase at P − 1, and the bar turns after the meter's last beat. -/
theorem witness_BeatBoundaryTaken :
    let s (beat : Nat) (q : State) : State := { q with
      frame := { q.frame with riseDue := true }
      tck := { q.tck with phase := 23999, beat := beat, clickMode := .on } }
    let moved (s : State) := (after .beatBoundary s).map fun t => (t.tck.phase, t.tck.beat, t.tck.burst)
    (s 4 ready).Settled ∧ moved (s 4 ready) = some (0, 1, some .accent) ∧
    moved (s 3 ready) = some (0, 4, some .normal) ∧
    (after .beatBoundary (s 1 (cueAt .running 10 none none ready))).map (·.csq.remaining) = some 1 :=
  ⟨settled_of (by decide +kernel), by decide +kernel⟩

/-- R180, R184, R185, R188, R190: what falls due at a bar boundary and at a beat boundary within a bar, and whether a
burst starts there with the click OFF. -/
theorem witness_BeatBoundaryTaken_cues :
    let at' (beat : Nat) (q : Csq) (mode : ClickMode) := (after .beatBoundary { ready with
      frame := { ready.frame with riseDue := true }
      tck := { ready.tck with phase := 23999, beat := beat, clickMode := mode }
      csq := q }).map fun t => (t.csq.due, t.csq.barsLeft, t.csq.remaining, t.tck.burst.isSome)
    let q (st : CueState) (op : Option HeldOp) (n : Nat) : Csq :=
      { Csq.reset with state := st, current := some 10, heldOp := op, barsLeft := n, remaining := n }
    let waits : Csq := { Csq.reset with waiting := some ⟨3, 10, 2, false⟩ }
    at' 4 waits .off = some (some .countInStart, 0, 0, false) ∧
    at' 3 waits .off = some (none, 0, 0, false) ∧
    at' 3 waits .countInOnly = some (none, 0, 0, true) ∧
    at' 4 (q .countIn none 2) .off = some (none, 1, 2, true) ∧
    at' 4 (q .countIn none 1) .off = some (some .countInEnd, 0, 1, false) ∧
    at' 3 (q .countIn none 1) .off = some (none, 1, 1, true) ∧
    at' 3 (q .held (some .advance) 2) .on = some (some .heldAdvance, 2, 2, false) ∧
    at' 3 (q .running (some .skip) 1) .on = some (some .heldSkip, 1, 1, false) ∧
    at' 3 (q .held none 1) .on = some (none, 1, 1, true) ∧
    at' 3 (q .vamping none 1) .on = some (some .vampReload, 1, 0, false) ∧
    at' 3 (q .running none 1) .on = some (some .cueEnd, 1, 0, false) ∧
    at' 3 (q .running none 0) .on = some (none, 0, 0, true) ∧
    at' 3 (q .vamping none 0) .on = some (none, 0, 0, true) := by
  refine ⟨?_, ?_, ?_, ?_, ?_, ?_, ?_, ?_, ?_, ?_, ?_, ?_, ?_⟩ <;> decide +kernel

/-- R171, R174: a rise that was due at 23,999 of 24,000 when a TEMPO of 20 BPM came first. -/
theorem witness_BeatBoundaryTaken_raised :
    let s : State := { ready with
      frame := { ready.frame with riseDue := true }, tck := { ready.tck with phase := 0, period := 144000 } }
    s.Settled ∧ s.tck.phase + 1 < s.tck.period ∧
    (after .beatBoundary s).map (fun t => (t.tck.phase, t.tck.beat, t.frame.riseDue)) = some (1, 1, false) :=
  ⟨settled_of (by decide +kernel), by decide, by decide +kernel⟩

/-- R139, R172: a switch on the beat starts at the block boundary of the frame when the beat boundary is taken
first, and waits for the next one when the block boundary is. -/
theorem test_beat_behind_a_block_boundary :
    let s : State := { starting .ready false with
      frame := { ready.frame with blockDue := true, riseDue := true }
      tck := { ready.tck with phase := 23999 } }
    let s : State := { s with swu := { s.swu with pending := s.swu.pending.map fun p =>
      { p with req := { p.req with quantize := .beat } } } }
    let ran (cs : List Instr) := (cs.foldl (fun (t : Option State) c => t.bind (after c)) (some s)).map
      fun t => (t.swu.crossfade.isSome, t.swu.pending.map fun p => (p.passed, p.fresh))
    ran [.beatBoundary, .blockBoundary, .crossfadeStart] = some (true, none) ∧
    ran [.blockBoundary, .beatBoundary, .crossfadeStart] = some (false, some (true, true)) ∧
    ran [.blockBoundary, .beatBoundary, .syncIntervalEnd (interval 256 true)]
      = some (false, some (true, true)) ∧
    ran [.blockBoundary, .crossfadeStart, .beatBoundary, .syncIntervalEnd (interval 256 true),
      .lockedFrame ⟨false, false⟩] = some (false, some (true, false)) := by
  refine ⟨?_, ?_, ?_, ?_⟩ <;> decide +kernel

theorem witness_ClickAndTunerEvents :
    let burst (n : Nat) : State := { ready with tck := { ready.tck with burst := some .accent, burstPos := n } }
    let silent (n : Nat) : State := { ready with tun := { ready.tun with mode := .background, silence := n, periods := [5] } }
    let paced (r : Option Pitch) : State := { ready with
      tun := { ready.tun with mode := .background, pacingDue := true, reading := r } }
    (after .clickBurstEnd (burst 480)).map (·.tck.burst) = some none ∧
    (after .clickBurstEnd (burst 479)).map (·.tck.burst) = some (some .accent) ∧
    (after .tunerSilence (silent 4800)).map (·.tun.periods) = some [] ∧
    (after .tunerSilence (silent 4799)).map (·.tun.periods) = some [5] ∧
    (paced none).Settled ∧
    (after .tunePacingExpiry (paced none)).map (·.cch.class4) = some [tuneRecord] ∧
    (after .tunePacingExpiry (paced (some ⟨28, -30, 1296⟩))).map (fun t => t.cch.class4.map Record.body)
      = some [[0x801CE2, 1296]] :=
  ⟨by decide +kernel, by decide +kernel, by decide +kernel, by decide +kernel,
    settled_of (by decide +kernel), by decide +kernel⟩

/-- R196, R197, R198: the crossing that completes a window of four periods judges it. -/
theorem witness_ClickAndTunerEvents_window :
    let t : Tun := { Tun.reset with
      index := 1201, previous := some (-1000), armed := true, lastCross := some 155581
      periods := [151704, 151704, 151703] }
    (t.measure 2000).periods = [151704, 151704, 151703, 151704] ∧
    (t.measure 2000).reading = some { note := 28, cents := -30, freq := 1296 } ∧
    (t.measure 0).periods = [151704, 151704, 151703] := by decide +kernel

/-- A start at record 10 of list 3 that waits. -/
def waiting (k : Nat) (due : Option CueDue) (s : State) : State :=
  let s := cued 1 0 s
  { s with csq := { s.csq with waiting := some ⟨3, 10, k, false⟩, due := due } }

theorem witness_WaitingStartBegins :
    (waiting 0 none atBlock).Settled ∧
    (after .cueListBegin (waiting 0 none atBlock)).map (fun t => (t.csq.state, t.csq.current, t.csq.remaining,
      t.csq.lookAhead)) = some (.running, some 10, 8, some 11) ∧
    (after .countInStart (waiting 4 (some .countInStart) ready)).map (fun t => (t.csq.state, t.csq.barsLeft))
      = some (.countIn, 4) ∧
    (after .countInEnd (cueAt .countIn 10 none (some .countInEnd) (cued 0 0 ready))).map
      (fun t => (t.csq.state, t.csq.remaining)) = some (.running, 8) ∧
    (after .countInEnd (cueAt .countIn 10 none (some .countInEnd) (cued 0 24000 ready))).map
      (fun t => t.tck.period) = some 12000 :=
  ⟨settled_of (by decide +kernel), by decide +kernel⟩

/-- R173, R185, R186, R191: the tempo of the first record at the start of its count-in; the base switch, the look-ahead
and the LOADED report of a load, with the switch refused, accepted, or held by an entry of the return stack. -/
theorem witness_WaitingStartBegins_loads :
    let next (s : State) : State :=
      { s with tbm := s.tbm.writeEntry .cue 11 0 [payload (5 <<< 16), payload (8 <<< 12), 0] }
    let valid (s : State) : State := { s with tbm := s.tbm.setValid .scene 5 true }
    let load (s : State) := (after .countInEnd (cueAt .countIn 10 none (some .countInEnd) s)).map fun t =>
      (t.swu.pending.map fun p => (p.req.target, p.req.quantize), (t.stg.slots.get 0).cuePin, t.cch.class3)
    let report (c : Code) (look : Bool) := [cueRecord 0 c 1 0 3 10 (some 5) 8 look 0]
    let counted : State := { cued 1 24000 ready with
      csq := { ready.csq with waiting := some ⟨3, 10, 4, false⟩, due := some .countInStart } }
    (after .countInStart counted).map (fun t => (t.tck.period, t.tck.phase, t.csq.barsLeft, t.cch.class3))
      = some (12000, 0, 4, [cueRecord 0 .ok 0 0 3 10 (some 5) 0 false 4]) ∧
    load (next (cued 1 0 ready)) = some (none, false, report .notPresent false) ∧
    load (valid (next (cued 3 0 ready))) = some (some (some 5, .bar), true, report .ok true) ∧
    load (valid (cued 0 0 ready)) = some (some (some 5, .none), false, report .ok false) ∧
    load (withStack [entry none .tuner] (valid (next (cued 1 0 ready)))) = some (none, true, report .ok true) := by
  refine ⟨?_, ?_, ?_, ?_, ?_⟩ <;> decide +kernel

theorem witness_CueEndsAndFollows :
    let s (flags : Nat) (h : Option HeldOp) (due : CueDue) : State :=
      cueAt .running 10 h (some due) (cued flags 0 ready)
    let last (flags : Nat) (due : CueDue) : State :=
      { cueAt .running 1023 none (some due) ready with
        tbm := ready.tbm.writeEntry .cue 1023 0 [payload (0xFF0000 + flags), payload (8 <<< 12), 0] }
    let now (c : Instr) (s : State) := (after c s).map fun t => (t.csq.state, t.csq.current)
    now .cueEnd (s 1 none .cueEnd) = some (.running, some 11) ∧
    now .cueEnd (s 0 none .cueEnd) = some (.idle, none) ∧
    now .cueEnd (last 1 .cueEnd) = some (.idle, none) ∧
    (after .cueEnd (s 4 none .cueEnd)).map (fun t => t.tbm.word .cue 10 1) = some (payload (8 <<< 12 + 2)) ∧
    now .heldAdvanceCarriedOut (s 1 (some .advance) .heldAdvance) = some (.running, some 11) ∧
    now .heldSkipCarriedOut (s 1 (some .skip) .heldSkip) = some (.idle, none) ∧
    now .heldSkipCarriedOut (s 0 (some .skip) .heldSkip) = some (.idle, none) ∧
    now .heldSkipCarriedOut (last 1 .heldSkip) = some (.idle, none) ∧
    let vamp : State := cueAt .vamping 10 none (some .vampReload) (cued 1 0 ready)
    (after .vampReload vamp).map (fun t => t.csq.remaining) = some 8 ∧
    (after .vampReload { vamp with pmn := { vamp.pmn with events := [.expression true 600] } }).map
      (fun t => (t.csq.remaining, t.pmn.last2, t.pmn.events)) = some (8, 600, []) := by decide +kernel

/-- Records from number `i` on, of scene `n`, 8 beats and no tempo, with the flags given. -/
def records (i : Nat) (n : Nat) (flags : List Nat) (s : State) : State :=
  let words := flags.flatMap fun f => [payload (n <<< 16 + f), payload (8 <<< 12), 0]
  { s with tbm := s.tbm.writeEntry .cue i 0 words }

/-- R190: a held SKIP at records 10, 1,021 and 1,022, with and without CONTINUE in the record it passes over, and
the record that its LIST_END report carries. -/
theorem witness_CueEndsAndFollows_skip :
    let skip (i : Nat) (flags : List Nat) :=
      (after .heldSkipCarriedOut (cueAt .held i (some .skip) (some .heldSkip) (records i 255 flags ready))).map
        fun t => (t.csq.state, t.csq.current, t.csq.heldOp, t.cch.class3)
    let ended (reason i : Nat) (s : Option (CueState × Option Nat × Option HeldOp × List Record)) : Bool :=
      s == some (.idle, none, none, [cueRecord 0 .ok 2 reason 3 i none 2 false 0])
    let loaded (i : Nat) (look : Bool) (s : Option (CueState × Option Nat × Option HeldOp × List Record)) : Bool :=
      s == some (.running, some i, none, [cueRecord 0 .ok 1 0 3 i none 8 look 0])
    loaded 12 false (skip 10 [1, 1, 1]) ∧ ended 1 11 (skip 10 [1, 0, 1]) ∧ ended 1 10 (skip 10 [0, 1, 1]) ∧
    loaded 1023 false (skip 1021 [1, 1, 1]) ∧ ended 2 1023 (skip 1022 [1, 1]) ∧
    ended 1 1023 (skip 1022 [1, 0]) ∧ ended 2 1023 (skip 1023 [1]) ∧ ended 1 1023 (skip 1023 [0]) := by
  decide +kernel

/-- R54, R186, R187, R189, R191: an end with RESIDUE set leaves the residue, clears the cue pins and reports the
list's end; one with CONTINUE loads a record of scene 5 with a tempo and a look-ahead to scene 6, behind the end
of a cue, a held ADVANCE and a held SKIP. -/
theorem witness_CueEndsAndFollows_whole :
    let tempo (i : Nat) (s : State) : State :=
      { s with tbm := s.tbm.writeEntry .cue i 2 [payload 24000] }
    let s (h : Option HeldOp) (due : CueDue) (j : Nat) (flags : List Nat) : State :=
      let s := records (j + 1) 6 [0] (tempo j (records j 5 [1] (records 10 255 flags ready)))
      let s := cueAt .running 10 h (some due) s
      { s with
        tbm := ((s.tbm.setValid .scene 5 true).setValid .scene 6 true)
        tck := { s.tck with clickMode := .on }
        stg := { s.stg with slots := upd s.stg.slots 3 { slotOf .ready 7 with cuePin := true } } }
    let seen (c : Instr) (s : State) := (after c s).map fun t =>
      (t.swu.pending.map (·.req.target), t.stg.slots.toList.map fun x => (x.scene, x.cuePin), t.tck.period,
        t.tck.burst)
    let loads (c : Instr) (s : State) : Bool := seen c s == some (some (some 5),
      [(some 5, false), (some 6, true), (none, false), (some 7, false)], 12000, some .accent)
    let reports (c : Instr) (s : State) := (after c s).map fun t => (t.tbm.word .cue 10 1, t.cch.class3)
    loads .cueEnd (s none .cueEnd 11 [1]) ∧
    loads .heldAdvanceCarriedOut (s (some .advance) .heldAdvance 11 [1]) ∧
    loads .heldSkipCarriedOut (s (some .skip) .heldSkip 12 [1, 1]) ∧
    reports .cueEnd (s none .cueEnd 11 [5]) =
      some (payload (8 <<< 12 + 2), [cueRecord 0 .ok 1 0 3 11 (some 5) 8 true 0]) ∧
    seen .cueEnd (s none .cueEnd 11 [4]) = some (none,
      [(none, false), (none, false), (none, false), (some 7, false)], 24000, some .accent) ∧
    reports .cueEnd (s none .cueEnd 11 [4]) =
      some (payload (8 <<< 12 + 2), [cueRecord 0 .ok 2 1 3 10 none 2 false 0]) := by
  refine ⟨?_, ?_, ?_, ?_, ?_, ?_⟩ <;> decide +kernel

/-! ### Witnesses: the machine -/

/-- The queue holds what is sent in order, and the step at its front runs. -/
theorem witness_StepRunsTheFrontOfTheQueue :
    step { State.reset with pending := [.resetnAssert, .ping] }
      = exec .resetnAssert { State.reset with pending := [.ping] } ∧
    step State.reset = .next State.reset := ⟨rfl, rfl⟩

/-- A state that meets every invariant and whose step moves it: scene 5 LIVE, scene 6 FADING, four entries
on the stack and a full FIFO. -/
def busy : State :=
  let s := crossing 255 none (receiving 15)
  { s with
    swu := { s.swu with stack := entry none .tuner :: List.replicate 3 (entry (some 5) .momentary) }
    cch := { s.cch with fifo := List.replicate 128 (msg 1 0 []) }
    frame := FrameEnd.closed
    pending := [.lockedFrame ⟨false, false⟩] }

theorem witness_MemoryStaysCanonical : busy.MemoryCanonical ∧ (∃ t, step busy = .next t) :=
  ⟨by unfold State.MemoryCanonical; decide +kernel, _, rfl⟩

theorem witness_ReturnStackStaysLegal : busy.StackLegal := by unfold State.StackLegal; decide +kernel

theorem witness_FifoStaysWithinItsCapacity : busy.FifoLegal := by unfold State.FifoLegal; decide +kernel

theorem witness_SlotsStayLegal : busy.SlotsLegal where
  oneSlotPerScene := by
    have h : ∀ i j, (busy.stg.slots.get i).scene = (busy.stg.slots.get j).scene →
        (busy.stg.slots.get i).scene ≠ none → i = j := by decide +kernel
    exact fun i j n hi hj => h i j (hi.trans hj.symm) (by simp [hi])
  oneLive := by decide +kernel
  oneFading := by decide +kernel
  fadingInFlight := by decide +kernel

theorem witness_ClockAndGainsStayInRange : busy.tck.Legal ∧ busy.InRange :=
  ⟨⟨by decide, by decide, by decide, by decide, ⟨by decide, by decide⟩, by decide, by decide, by decide⟩,
   ⟨by decide, by decide, by intro x h; cases h; decide, by decide +kernel,
    by decide +kernel, by decide⟩⟩

end Sys2Proof.Tests
end

