-- ==== Sys2Proof/Proofs/SlotMap.lean ====
section
/-! PROOF. The slot map: what a SLOTMAP leaves (R13), and what moves the map in force (R12, R14). -/

namespace Sys2Proof.Machine

/-! ### SLOTMAP (R13) -/

theorem roleInRange_iff (n : Nat) : roleInRange n = true ↔ n ≤ 7 ∨ n = 255 := by
  simp [roleInRange, Nat.lt_succ_iff]

/-- Checks 2 to 4 of R13 as propositions. -/
theorem slotMapAccepted_iff (w1 w2 w3 w4 w5 : Word24) :
    slotMapAccepted w1 w2 w3 w4 w5 = true ↔
      (∀ n ∈ slotMapFields w1 w2 w3 w4 w5, n ≤ 7 ∨ n = 255) ∧
      (slotMapOf w1 w2 w3 w4 w5).control ≠ none ∧ (slotMapOf w1 w2 w3 w4 w5).reply ≠ none ∧
      noSlotTwice (slotMapOf w1 w2 w3 w4 w5).inbound = true ∧
      noSlotTwice (slotMapOf w1 w2 w3 w4 w5).outboundSlots = true := by
  simp only [slotMapAccepted, Bool.and_eq_true, List.all_eq_true, roleInRange_iff,
    Option.isSome_iff_ne_none, and_assoc]

theorem slotmapEffect_of_length_ne {m : Message} (h : m.body.length ≠ 5) (s : State) :
    slotmapEffect m s = (s, ack .badLength) := by
  unfold slotmapEffect
  split
  · next hb => exact absurd (by rw [hb]; rfl) h
  · rfl

theorem slotmapEffect_of_body {m : Message} {w1 w2 w3 w4 w5 : Word24}
    (h : m.body = [w1, w2, w3, w4, w5]) (s : State) :
    slotmapEffect m s =
      if slotMapAccepted w1 w2 w3 w4 w5 = true then
        (s.mapSli fun l => { l with waiting := some (slotMapOf w1 w2 w3 w4 w5), ackSent := false },
          { kind := .ack, code := .ok, body := [], ends := true })
      else (s, ack .range) := by
  simp only [slotmapEffect, h]

/-- An answer and the reports behind it do not read the link. -/
theorem State.reply_mapSli (m : Message) (t : State) (f : Sli → Sli) (r : Reply) :
    State.reply m (t.mapSli f, r) = (State.reply m (t, r)).mapSli f := rfl

/-- Settles O4: the effect of a SLOTMAP by its cases, and the answer to each. -/
theorem slotmapHeldOrRefused : Obligations.SlotmapHeldOrRefused := by
  intro m rest s h
  have hrun : exec .slotmap s = .next (State.reply m (slotmapEffect m (s.removeHead rest))) :=
    h.run slotmapEffect
  refine ⟨fun hlen => ?_, fun w1 w2 w3 w4 w5 hbody => ?_⟩
  · rw [hrun, slotmapEffect_of_length_ne hlen, State.reply_ack h.settled]
  · rw [hrun, slotmapEffect_of_body hbody]
    simp only [← slotMapAccepted_iff]
    split
    · rw [State.reply_mapSli, State.reply_removeHead h.settled m rest _ rfl]
      rfl
    · rw [State.reply_ack h.settled]

/-! ### What moves the map in force (R12, R14) -/

/-- The map in force is kept, and a switch-over that is due afterwards was due before, to the same map. -/
def Sli.KeepsMap (l l' : Sli) : Prop :=
  l'.map = l.map ∧ (l'.ackSent = true → l.ackSent = true ∧ l'.waiting = l.waiting)

/-- A switch-over that was due has put the waiting map in force, and none is due afterwards. -/
def Sli.SwitchesMap (l l' : Sli) : Prop :=
  l.ackSent = true ∧ l.waiting = some l'.map ∧ l'.ackSent = false

/-- From `s` to `t` the map in force has changed by a switch-over due in `s`, if at all. -/
def State.MapFollows (s t : State) : Prop := s.sli.KeepsMap t.sli ∨ s.sli.SwitchesMap t.sli

theorem Sli.KeepsMap.of_eq {l l' : Sli} (hm : l'.map = l.map) (hw : l'.waiting = l.waiting)
    (ha : l'.ackSent = l.ackSent) : l.KeepsMap l' :=
  ⟨hm, fun h => ⟨ha ▸ h, hw⟩⟩

theorem State.MapFollows.of_sli {s t : State} (h : t.sli = s.sli) : s.MapFollows t :=
  .inl (.of_eq (by rw [h]) (by rw [h]) (by rw [h]))

theorem State.MapFollows.trans {s t u : State} (h : s.MapFollows t) (h' : t.MapFollows u) :
    s.MapFollows u := by
  rcases h with ⟨hmap, hdue⟩ | ⟨hack, hwait, hdone⟩ <;>
    rcases h' with ⟨hmap', hdue'⟩ | ⟨hack', hwait', hdone'⟩
  · exact .inl ⟨hmap'.trans hmap, fun hu =>
      have ⟨ht, hw'⟩ := hdue' hu
      have ⟨hs, hw⟩ := hdue ht
      ⟨hs, hw'.trans hw⟩⟩
  · have ⟨hs, hw⟩ := hdue hack'
    exact .inr ⟨hs, hw ▸ hwait', hdone'⟩
  · have hu : u.sli.ackSent = false := by
      rw [Bool.eq_false_iff]
      intro hu
      exact absurd (hdue' hu).1 (by simp [hdone])
    exact .inr ⟨hack, by rw [hwait, hmap'], hu⟩
  · exact absurd hack' (by simp [hdone])

theorem State.MapFollows.ite {s t u : State} {p : Prop} [Decidable p] (ht : s.MapFollows t)
    (hu : s.MapFollows u) : s.MapFollows (if p then t else u) := by
  split
  · exact ht
  · exact hu

/-- What the statement says of a step. -/
theorem State.MapFollows.due {s t : State} (h : s.MapFollows t) (hne : t.sli.map ≠ s.sli.map) :
    s.sli.ackSent = true ∧ s.sli.waiting = some t.sli.map := by
  rcases h with ⟨hmap, -⟩ | ⟨hack, hwait, -⟩
  · exact absurd hmap hne
  · exact ⟨hack, hwait⟩

/-! ### The link's own steps -/

/-- Where the waiting map is put in force if a switch-over is due and the switch-over is over. -/
theorem State.MapFollows.of_getD {s t : State}
    (hmap : t.sli.map = if s.sli.ackSent then s.sli.waiting.getD s.sli.map else s.sli.map)
    (hack : t.sli.ackSent = false) : s.MapFollows t := by
  cases ha : s.sli.ackSent with
  | false => exact .inl ⟨by simpa [ha] using hmap, by simp [hack]⟩
  | true =>
    cases hw : s.sli.waiting with
    | none => exact .inl ⟨by simpa [ha, hw] using hmap, by simp [hack]⟩
    | some map => exact .inr ⟨ha, by simpa [ha, hw] using hmap.symm, hack⟩

theorem Sli.switchOver_map (l : Sli) :
    l.switchOver.map = if l.ackSent then l.waiting.getD l.map else l.map := by
  unfold Sli.switchOver
  split <;> rfl

theorem Sli.switchOver_ackSent (l : Sli) : l.switchOver.ackSent = false := by
  unfold Sli.switchOver
  split
  · rfl
  · next h => simpa using h

theorem Sli.switchOver_of_due {l : Sli} {map : SlotMap} (ha : l.ackSent = true)
    (hw : l.waiting = some map) :
    l.switchOver = { l with map := map, waiting := none, ackSent := false } := by
  simp [Sli.switchOver, ha, hw]

theorem State.switchOver_mapFollows (s : State) : s.MapFollows (s.mapSli Sli.switchOver) :=
  .of_getD (by rw [State.mapSli_sli, Sli.switchOver_map]) (by rw [State.mapSli_sli, Sli.switchOver_ackSent])

theorem State.endFrame_mapFollows (s : State) : s.MapFollows s.endFrame := .inl (.of_eq rfl rfl rfl)

theorem State.lock_mapFollows (s : State) : s.MapFollows s.lock :=
  .inl (.of_eq (by simp [State.lock]) (by simp [State.lock]) (by simp [State.lock]))

theorem State.linkLoss_sli (s : State) : s.linkLoss.sli = s.sli.linkLoss := by
  simp [State.linkLoss]

theorem State.linkLoss_mapFollows (s : State) : s.MapFollows s.linkLoss :=
  .of_getD (by rw [State.linkLoss_sli]; rfl) (by rw [State.linkLoss_sli]; rfl)

theorem State.audio_map (s : State) (f : FrameIn) :
    (s.audio f).sli.map = s.sli.map ∧ (s.audio f).sli.waiting = s.sli.waiting ∧
    (s.audio f).sli.ackSent = s.sli.ackSent := by
  simp [State.audio]

theorem State.clockFrame_map (s : State) :
    s.clockFrame.sli.map = s.sli.map ∧ s.clockFrame.sli.waiting = s.sli.waiting ∧
    s.clockFrame.sli.ackSent = s.sli.ackSent := by
  unfold State.clockFrame
  dsimp only
  split <;> simp

theorem State.deliverFrame_mapFollows (s : State) (o : FrameOrder) (r : Received) :
    s.MapFollows (s.deliverFrame o r) := by
  refine .inl (.of_eq ?_ ?_ ?_) <;> unfold State.deliverFrame <;> (repeat' split) <;>
    simp [State.audio_map, State.clockFrame_map]

theorem State.deliverDue_mapFollows (s : State) (o : FrameOrder) : s.MapFollows (s.deliverDue o) := by
  unfold State.deliverDue
  split
  · exact s.deliverFrame_mapFollows o _
  · exact .of_sli rfl
  · exact .of_sli rfl

theorem State.serveLink_mapFollows (s : State) : s.MapFollows s.serveLink := by
  unfold State.serveLink
  split
  · exact s.lock_mapFollows
  · split
    · exact s.linkLoss_mapFollows
    · exact s.deliverDue_mapFollows _

theorem State.settle_mapFollows (s : State) : s.MapFollows s.settle := by
  unfold State.settle
  split
  · exact .of_sli rfl
  · exact s.serveLink_mapFollows.trans (.of_sli (by simp))

/-! ### Messages -/

/-- No message puts a map in force; a SLOTMAP, which gives a new waiting map, ends a switch-over that was
due. -/
theorem MessageRow.effect_keepsMap (r : MessageRow) (m : Message) (s : State) :
    s.sli.KeepsMap (r.effect m s).1.sli := by
  cases r
  case slotmap =>
    simp only [MessageRow.effect]
    unfold slotmapEffect
    (repeat' split) <;> simp [Sli.KeepsMap]
  all_goals refine .of_eq ?_ ?_ ?_ <;> simp [MessageRow.effect]

theorem State.takeMessage_mapFollows (r : MessageRow) (m : Message) (rest : List Message) (s : State) :
    s.MapFollows (s.takeMessage r.effect m rest) :=
  .inl (r.effect_keepsMap m (s.removeHead rest))

theorem State.takeRow_mapFollows (r : MessageRow) (s : State) :
    s.MapFollows (s.takeRow r r.effect) := by
  unfold State.takeRow
  (repeat' split)
  · exact s.takeMessage_mapFollows r _ _
  all_goals exact .of_sli rfl

theorem State.executorLook_mapFollows (s : State) : s.MapFollows s.executorLook := by
  unfold State.executorLook
  (repeat' split)
  · exact s.takeMessage_mapFollows _ _ _
  all_goals exact .of_sli rfl

/-- While a map waits, the executor takes no message (R14, R32). -/
theorem State.executorLook_of_waiting {s : State} (h : s.sli.waiting.isSome = true) :
    s.executorLook = s := by
  have hno (row : MessageRow) : s.mayTake row = false := by
    simp [State.mayTake, Option.isNone_eq_false_iff.mpr h]
  unfold State.executorLook
  split
  · simp [hno]
  · rfl

/-! ### The close of a frame -/

@[simp] theorem State.loaderTakes_sli (n : Nat) (s : State) : (State.loaderTakes n s).sli = s.sli := by
  induction n generalizing s with
  | zero => rfl
  | succ n ih =>
    unfold State.loaderTakes
    split
    · rw [ih]; simp
    · rfl

/-- The frame with every step still to come at its end taken, before the serializer. -/
def State.upToEnd (s : State) : State :=
  let s := State.takePedals s.pmn.events.length s
  s.closeExecutor.closeControl.closeExecutor.closeBeat.closeBoundary.closeMeasure

theorem State.closeFrame_of_open {s : State} (h : s.frame.isOpen = true) :
    s.closeFrame =
      (s.upToEnd.endFrame.mapSli Sli.switchOver).mapFrame fun _ => FrameEnd.closed :=
  if_pos h

theorem State.closeFrame_of_closed {s : State} (h : ¬ s.frame.isOpen = true) : s.closeFrame = s :=
  if_neg h

/-- A relation between states about the link alone that holds along every step at the end of a frame: only
what `settle` serves and a message taken touch the link there. -/
structure CloseRel (R : State → State → Prop) : Prop where
  of_sli : ∀ {s t}, t.sli = s.sli → R s t
  trans  : ∀ {s t u}, R s t → R t u → R s u
  settle : ∀ s, R s s.settle
  look   : ∀ s, R s s.executorLook

namespace CloseRel

variable {R : State → State → Prop} (hR : CloseRel R)
include hR

theorem settle_of_sli {s t : State} (h : t.sli = s.sli) : R s t.settle :=
  hR.trans (hR.of_sli h) (hR.settle t)

theorem takePedals (n : Nat) (s : State) : R s (State.takePedals n s) := by
  induction n generalizing s with
  | zero => exact hR.of_sli rfl
  | succ n ih =>
    unfold State.takePedals
    split
    · exact hR.trans (hR.settle_of_sli (by simp)) (ih _)
    · exact hR.of_sli rfl

theorem takeHolds (n : Nat) (s : State) : R s (State.takeHolds n s) := by
  induction n generalizing s with
  | zero => exact hR.of_sli rfl
  | succ n ih =>
    unfold State.takeHolds
    split
    · exact hR.trans (hR.settle_of_sli (by simp)) (ih _)
    · exact hR.of_sli rfl

theorem closeExecutor (s : State) : R s s.closeExecutor := hR.trans (hR.look s) (hR.settle _)

theorem closeControl (s : State) : R s s.closeControl := by
  unfold State.closeControl
  split
  · exact hR.settle_of_sli (by simp)
  · exact hR.of_sli rfl

theorem closeBeat (s : State) : R s s.closeBeat := by
  unfold State.closeBeat
  split
  · exact hR.settle_of_sli (by simp)
  · exact hR.of_sli rfl

theorem closeMeasure (s : State) : R s s.closeMeasure := by
  unfold State.closeMeasure
  split
  · exact hR.settle_of_sli (by simp)
  · exact hR.of_sli rfl

theorem closeList (s : State) : R s s.closeList := by
  unfold State.closeList
  split
  · exact hR.settle_of_sli (by simp)
  · exact hR.of_sli rfl

/-- The events of a block boundary, from the tails to the TUNE record. -/
theorem boundaryEvents (s : State) :
    R s ((State.takeHolds 12 s.closeTails).closePreparation.closeCrossfade.closeStart.loaderTakes 4
      ).closeList.closePacing := by
  have hholds : R s (State.takeHolds 12 s.closeTails) :=
    hR.trans (hR.of_sli (by simp)) (hR.takeHolds 12 _)
  have hloader := hR.trans hholds (hR.of_sli
    (t := (State.takeHolds 12 s.closeTails).closePreparation.closeCrossfade.closeStart.loaderTakes 4)
    (by simp))
  exact hR.trans (hR.trans hloader (hR.closeList _)) (hR.of_sli (by simp))

theorem closeBoundary (s : State) : R s s.closeBoundary := by
  have hblock : R s (if s.boundaryDue then s.blockBoundary.settle else s) := by
    split
    · exact hR.settle_of_sli (by simp)
    · exact hR.of_sli rfl
  unfold State.closeBoundary
  generalize (if s.boundaryDue then s.blockBoundary.settle else s) = t at hblock
  dsimp only
  split
  · exact hR.trans hblock (hR.boundaryEvents t)
  · exact hblock

theorem upToEnd (s : State) : R s s.upToEnd :=
  have hpedals := hR.takePedals s.pmn.events.length s
  have hexecutor := hR.trans hpedals (hR.closeExecutor _)
  have hcontrol := hR.trans hexecutor (hR.closeControl _)
  have hagain := hR.trans hcontrol (hR.closeExecutor _)
  have hbeat := hR.trans hagain (hR.closeBeat _)
  have hboundary := hR.trans hbeat (hR.closeBoundary _)
  hR.trans hboundary (hR.closeMeasure _)

end CloseRel

theorem closeRel_mapFollows : CloseRel State.MapFollows where
  of_sli := .of_sli
  trans := .trans
  settle := State.settle_mapFollows
  look := State.executorLook_mapFollows

theorem State.closeFrame_mapFollows (s : State) : s.MapFollows s.closeFrame := by
  by_cases h : s.frame.isOpen = true
  · rw [State.closeFrame_of_open h]
    have hend := (closeRel_mapFollows.upToEnd s).trans s.upToEnd.endFrame_mapFollows
    exact (hend.trans s.upToEnd.endFrame.switchOver_mapFollows).trans
      (.of_sli (State.mapFrame_sli _ _))
  · rw [State.closeFrame_of_closed h]
    exact .of_sli rfl

/-- With nothing of the link due and a map waiting, the link is kept as it is. -/
def State.KeepsWaitingLink (s t : State) : Prop :=
  s.linkIdle → s.sli.waiting.isSome = true → t.sli = s.sli

theorem State.linkIdle_of_sli {s t : State} (h : t.sli = s.sli) (hs : s.linkIdle) : t.linkIdle :=
  State.linkIdle_congr (by simp [State.linkCore, h]) hs

theorem closeRel_keepsWaitingLink : CloseRel State.KeepsWaitingLink where
  of_sli h _ _ := h
  trans h h' hidle hwait :=
    have hst := h hidle hwait
    (h' (State.linkIdle_of_sli hst hidle) (hst ▸ hwait)).trans hst
  settle s hidle _ := by
    unfold State.settle
    split
    · rfl
    · simp [State.serveLink_idle s hidle]
  look s _ hwait := by rw [State.executorLook_of_waiting hwait]

theorem State.Settled.linkIdle {s : State} (h : s.Settled) : s.linkIdle := by
  have hq := h.quiet
  simp only [State.quiet, Bool.and_eq_true, Bool.not_eq_true'] at hq
  obtain ⟨⟨⟨⟨⟨⟨⟨⟨hlock, hloss⟩, hframe⟩, _⟩, _⟩, _⟩, _⟩, _⟩, _⟩ := hq
  exact ⟨hlock, hloss, hframe⟩

/-- The link behind the close of a frame at whose end a switch-over is due. -/
theorem State.closeFrame_sli_of_due {s : State} {map : SlotMap} (hidle : s.linkIdle)
    (hopen : s.frame.isOpen = true) (hack : s.sli.ackSent = true) (hwait : s.sli.waiting = some map) :
    ∃ out, s.closeFrame.sli =
      { s.sli with
        map := map, waiting := none, ackSent := false, outbound := out
        counter := s.sli.counter + 1 } := by
  have hsli : s.upToEnd.sli = s.sli :=
    closeRel_keepsWaitingLink.upToEnd s hidle (by simp [hwait])
  rw [State.closeFrame_of_open hopen, State.mapFrame_sli, State.mapSli_sli]
  refine ⟨s.upToEnd.endFrame.sli.outbound, ?_⟩
  rw [Sli.switchOver_of_due (map := map) (by simp [State.endFrame, hsli, hack])
    (by simp [State.endFrame, hsli, hwait])]
  simp [State.endFrame, hsli]

theorem State.intervalEnds_map (s : State) (iv : SyncInterval) :
    (s.intervalEnds iv).sli.map = s.sli.map := by
  have hreply (n : Nat) (t : State) : (t.sendReply n).sli.map = t.sli.map := by
    unfold State.sendReply
    split <;> simp
  have hjudge (n : Nat) (l : Sli) : (l.judge iv n).map = l.map := by
    unfold Sli.judge
    split <;> rfl
  simp [State.intervalEnds, hreply, hjudge, Sli.drive]

/-! ### Every step -/

theorem act_next {f : State → State} {s t : State} (h : act f s = .next t) : t = s ∨ t = f s := by
  unfold act at h
  split at h <;> cases h
  · exact .inl rfl
  · exact .inr rfl

theorem State.MapFollows.of_act {f : State → State} {s t : State} (h : act f s = .next t)
    (hf : s.MapFollows (f s)) : s.MapFollows t := by
  rcases act_next h with rfl | rfl
  · exact .of_sli rfl
  · exact hf

/-- A step behind what `settle` serves that leaves the link as it is. -/
theorem State.MapFollows.of_settle {s t : State} (h : t.sli = s.settle.sli) : s.MapFollows t :=
  s.settle_mapFollows.trans (.of_sli h)

/-- A step of the executor takes its row of the table. -/
theorem exec_of_messageRow {c : Instr} {r : MessageRow} (h : messageRowOf c = some r) (s : State) :
    exec c s = takeMessageRow r r.effect s := by
  cases c <;> cases h <;> rfl

theorem takeMessageRow_mapFollows {r : MessageRow} {s t : State}
    (h : takeMessageRow r r.effect s = .next t) : s.MapFollows t :=
  .of_act h (s.settle_mapFollows.trans (State.takeRow_mapFollows r s.settle))

@[simp] theorem State.cueStep_sli (d : CueDue) (s : State) : (s.cueStep d d.action).sli = s.sli := by
  unfold State.cueStep
  split <;> simp

@[simp] theorem State.pedalStep_sli (e : PedalEvent) (s : State) : (s.pedalStep e).sli = s.sli := by
  unfold State.pedalStep
  (repeat' split) <;> simp

/-- The map in force through a step that takes no message; the interval that ends may make a switch-over due,
which is then for a later step. -/
theorem exec_event_mapFollows {c : Instr} (hrow : messageRowOf c = none) (hreset : c ≠ .powerOnReset)
    (hinterval : ∀ iv, c ≠ .syncIntervalEnd iv) {s t : State} (h : exec c s = .next t) :
    s.MapFollows t := by
  cases c
  case powerOnReset => exact absurd rfl hreset
  case syncIntervalEnd iv => exact absurd rfl (hinterval iv)
  case resetnAssert =>
    cases h
    exact .inl (.of_eq rfl rfl rfl)
  case lock => exact .of_act h (.ite s.lock_mapFollows (.of_sli rfl))
  case linkLoss => exact .of_act h (.ite s.linkLoss_mapFollows (.of_sli rfl))
  case lockedFrame o => exact .of_act h (s.deliverDue_mapFollows o)
  case slotmapSwitchover =>
    dsimp only [exec] at h
    exact .of_act h (s.settle_mapFollows.trans (.ite s.settle.closeFrame_mapFollows (.of_sli rfl)))
  case countInStart => exact .of_act h (.of_sli (s.cueStep_sli .countInStart))
  case countInEnd => exact .of_act h (.of_sli (s.cueStep_sli .countInEnd))
  case cueEnd => exact .of_act h (.of_sli (s.cueStep_sli .cueEnd))
  case vampReload => exact .of_act h (.of_sli (s.cueStep_sli .vampReload))
  case heldAdvanceCarriedOut => exact .of_act h (.of_sli (s.cueStep_sli .heldAdvance))
  case heldSkipCarriedOut => exact .of_act h (.of_sli (s.cueStep_sli .heldSkip))
  case assemblyTimeout | clickBurstEnd | tunerSilence | noiseGateHoldEnd | noiseGateRampEnd =>
    exact .of_act h (.of_sli (by simp))
  case tapFadeEnd l => exact .of_act h (.ite (.of_sli (by simp)) (.of_sli rfl))
  case loaderTake | preparationComplete | tunePacingExpiry | footswitchPress | footswitchRelease =>
    dsimp only [exec] at h
    exact .of_act h (.of_settle (by simp))
  case blockBoundary | crossfadeStart | reversal | crossfadeComplete | tailExpiry | holdEvent
      | beatBoundary | cueListBegin =>
    dsimp only [exec] at h
    exact .of_act h (.ite (.of_settle (by simp)) (.of_settle rfl))
  all_goals cases hrow

/-- Every step but the power-on reset changes the map in force by a switch-over that is due, if at all. -/
theorem exec_map_of_ne {c : Instr} {s t : State} (hreset : c ≠ .powerOnReset)
    (h : exec c s = .next t) (hne : t.sli.map ≠ s.sli.map) :
    s.sli.ackSent = true ∧ s.sli.waiting = some t.sli.map := by
  by_cases hiv : ∃ iv, c = .syncIntervalEnd iv
  · obtain ⟨iv, rfl⟩ := hiv
    dsimp only [exec] at h
    rcases act_next h with rfl | rfl
    · exact absurd rfl hne
    · have hclose := s.settle_mapFollows.trans s.settle.closeFrame_mapFollows
      rw [State.intervalEnds_map] at hne ⊢
      exact hclose.due hne
  · cases hrow : messageRowOf c with
    | some r => exact (takeMessageRow_mapFollows (exec_of_messageRow hrow s ▸ h)).due hne
    | none => exact (exec_event_mapFollows hrow hreset (fun iv e => hiv ⟨iv, e⟩) h).due hne

theorem exec_powerOnReset_map {s t : State} (h : exec .powerOnReset s = .next t) :
    t.sli.map = SlotMap.powerOn := by
  cases h
  rfl

/-- A due switch-over at the end of an open frame closes the frame with the waiting map in force (R14). -/
theorem exec_slotmapSwitchover_of_due {map : SlotMap} {s : State} (hs : s.Settled)
    (hack : s.sli.ackSent = true) (hwait : s.sli.waiting = some map) (hopen : s.frame.isOpen = true) :
    ∃ t, exec .slotmapSwitchover s = .next t ∧ t.sli.map = map ∧ t.sli.waiting = none ∧
      t.sli.ackSent = false ∧ t.sli.lock = s.sli.lock ∧ t.frame.isOpen = false := by
  have hrun : exec .slotmapSwitchover s = .next s.closeFrame := by
    calc exec .slotmapSwitchover s
        = act (fun s => if s.settle.sli.ackSent then s.settle.closeFrame else s.settle) s := rfl
      _ = .next (if s.sli.ackSent then s.closeFrame else s) :=
        hs.act_settle fun s => if s.sli.ackSent then s.closeFrame else s
      _ = .next s.closeFrame := by rw [if_pos hack]
  obtain ⟨out, hsli⟩ := State.closeFrame_sli_of_due hs.linkIdle hopen hack hwait
  refine ⟨_, hrun, ?_, ?_, ?_, ?_, ?_⟩
  case refine_5 => rw [State.closeFrame_of_open hopen]; rfl
  all_goals rw [hsli]

/-- Settles O29, by the map in force through each step and the close of the frame at a switch-over. -/
theorem slotMapChangesOnlyAtASwitchover : Obligations.SlotMapChangesOnlyAtASwitchover :=
  ⟨⟨rfl, fun _ _ _ h => ⟨fun hc => exec_powerOnReset_map (hc ▸ h), fun hc => exec_map_of_ne hc h⟩⟩,
    fun _ _ => exec_slotmapSwitchover_of_due⟩

end Sys2Proof.Machine
end

/-! PROOF. The control channel: the answer to a PING (R42), an ABORT in each state of the assembler (R27),
and the waiting TUNE record (R39). -/

namespace Sys2Proof.Machine

/-! ### PING (R42) -/

theorem pingEffect_of_body_nil {m : Message} (h : m.body = []) (s : State) :
    pingEffect m s = (s, data [payload (m.a0 <<< 16 + s.sli.counter.toNat % 65536)]) := by
  simp only [pingEffect, h]

theorem pingEffect_of_body_ne_nil {m : Message} (h : m.body ≠ []) (s : State) :
    pingEffect m s = (s, ack .badLength) := by
  unfold pingEffect
  split
  · contradiction
  · rfl

/-- Settles O2, by the length of the body; the frame counter is the one from before the message left the
FIFO, which taking a message keeps. -/
theorem pingAnswers : Obligations.PingAnswers := by
  intro m rest s h
  have hrun : exec .ping s = .next (State.reply m (pingEffect m (s.removeHead rest))) :=
    h.run pingEffect
  have hcounter : (s.removeHead rest).sli.counter = s.sli.counter := rfl
  rw [hrun]
  split
  case isTrue hbody => rw [pingEffect_of_body_nil hbody, hcounter, State.reply_data h.settled]
  case isFalse hbody => rw [pingEffect_of_body_ne_nil hbody, State.reply_ack h.settled]

/-! ### ABORT (R27) -/

/-- The open message leaves the FIFO tail, and HOLD follows the fill that is left (R29, R30). -/
theorem Cch.discardOpen_eq (c : Cch) :
    c.discardOpen = { c with
      tail := none, asm := { c.asm with assembling := false }
      hold := holdAt ({ c with tail := none } : Cch).fill c.hold } := rfl

theorem Cch.arrival_abort_of_assembling {c : Cch} (h : c.asm.assembling = true) :
    c.arrival .abort = c.discardOpen := if_pos h

theorem Cch.arrival_abort_of_idle {c : Cch} (h : c.asm.assembling = false) :
    c.arrival .abort = c := if_neg (by simp [h])

/-- Settles O32, by the state of the assembler. -/
theorem abortWithdrawsTheOpenMessage : Obligations.AbortWithdrawsTheOpenMessage := fun c =>
  ⟨fun h => (Cch.arrival_abort_of_assembling h).trans c.discardOpen_eq, Cch.arrival_abort_of_idle⟩

/-! ### The waiting TUNE record (R39) -/

/-- A record of class 4 takes the place of the one that waits, or is queued where it finds room. -/
theorem Cch.enqueue_class4 {r : Record} {c : Cch} (h : r.kind.cls = 4)
    (hr : c.class4 ≠ [] ∨ r.length ≤ c.room) : c.enqueue r = { c with class4 := [r] } := by
  simp [Cch.enqueue, h, hr]

/-- A record of class 4 that finds none waiting and no room is dropped and counted; DROPPED stays. -/
theorem Cch.enqueue_class4_full {r : Record} {c : Cch} (h : r.kind.cls = 4)
    (hr : ¬ (c.class4 ≠ [] ∨ r.length ≤ c.room)) :
    c.enqueue r = { c with
      counters := { c.counters with tuneDropped := min 65535 (c.counters.tuneDropped + 1) } } := by
  simp [Cch.enqueue, h, hr, satAdd, Config.counterMax]

/-- Settles O33, by whether a TUNE record waits or the new one finds room. -/
theorem tuneRecordReplacesTheWaitingOne : Obligations.TuneRecordReplacesTheWaitingOne := by
  intro c r hkind
  have hcls : r.kind.cls = 4 := by rw [hkind]; rfl
  dsimp only
  split
  case isTrue hr => exact Cch.enqueue_class4 hcls hr
  case isFalse hr => exact Cch.enqueue_class4_full hcls hr

end Sys2Proof.Machine


/-! PROOF. The invariants of the machine: what every operation over the state keeps of them, and that every
step keeps them (R29, R46, R62, R83, R84, R108, R120, R121, R123, R141, R162, R171–R178). -/

namespace Sys2Proof.Machine

/-! ### The invariants block by block -/

/-- The fill of a line and its held next time (R108, R120). -/
def Line.Legal (l : Line) : Prop :=
  l.mem.length ≤ 98304 ∧ (l.held ≠ none → l.target ≠ l.current)

def Dlu.Legal (d : Dlu) : Prop := ∀ l, (d.lines.get l).Legal

/-- R83, R84. -/
def Sce.Legal (e : Sce) : Prop := e.mute ≤ 32768 ∧ e.fade ≤ 32768

/-- The elapsed count of a crossfade in flight, if there is one (R141). -/
def Swu.ElapsedLegal (u : Swu) : Prop := ∀ x, u.crossfade = some x → x.elapsed ≤ x.length

/-- R162. -/
def Swu.StackLegal (u : Swu) : Prop :=
  u.stack.length ≤ 4 ∧ (u.stack.filter fun e => e.reason == .tuner).length ≤ 1

/-- The slots are legal, with `inFlight` for a crossfade in flight (R123). -/
structure Stg.Legal (g : Stg) (inFlight : Bool) : Prop where
  scenes : ∀ i j n, (g.slots.get i).scene = some n → (g.slots.get j).scene = some n → i = j
  live   : ∀ i j, (g.slots.get i).state = .live → (g.slots.get j).state = .live → i = j
  fading : ∀ i j, (g.slots.get i).state = .fading → (g.slots.get j).state = .fading → i = j
  flight : ∀ i, (g.slots.get i).state = .fading → inFlight = true

theorem State.slotsLegal_iff (s : State) :
    s.SlotsLegal ↔ s.stg.Legal s.swu.crossfade.isSome :=
  ⟨fun ⟨h1, h2, h3, h4⟩ => ⟨h1, h2, h3, h4⟩, fun ⟨h1, h2, h3, h4⟩ => ⟨h1, h2, h3, h4⟩⟩

theorem State.inRange_iff (s : State) :
    s.InRange ↔ s.sce.Legal ∧ s.swu.ElapsedLegal ∧ s.dlu.Legal ∧ s.tbm.gateLimit ≤ 128 :=
  ⟨fun ⟨hm, hf, he, hl, hh, hg⟩ => ⟨⟨hm, hf⟩, he, fun l => ⟨hl l, hh l⟩, hg⟩,
    fun ⟨⟨hm, hf⟩, he, hl, hg⟩ => ⟨hm, hf, he, fun l => (hl l).1, fun l => (hl l).2, hg⟩⟩

/-- `t` meets every part of the invariants that `s` meets. An operation that leaves a block as it is keeps its
part, by the lemmas about what the operations leave unchanged. -/
structure State.Keeps (s t : State) : Prop where
  mem     : s.tbm.mem.wf = true → t.tbm.mem.wf = true := by simp
  limit   : s.tbm.gateLimit ≤ 128 → t.tbm.gateLimit ≤ 128 := by simp
  stack   : s.swu.StackLegal → t.swu.StackLegal := by simp
  fill    : s.cch.fill ≤ 128 → t.cch.fill ≤ 128 := by simp
  slots   : s.stg.Legal s.swu.crossfade.isSome → t.stg.Legal t.swu.crossfade.isSome := by simp
  clock   : s.tck.Legal → t.tck.Legal := by simp
  gains   : s.sce.Legal → t.sce.Legal := by simp
  elapsed : s.swu.ElapsedLegal → t.swu.ElapsedLegal := by simp
  lines   : s.dlu.Legal → t.dlu.Legal := by simp

namespace State.Keeps

theorem refl (s : State) : s.Keeps s where

theorem trans {s t u : State} (h : s.Keeps t) (h' : t.Keeps u) : s.Keeps u where
  mem := h'.mem ∘ h.mem
  limit := h'.limit ∘ h.limit
  stack := h'.stack ∘ h.stack
  fill := h'.fill ∘ h.fill
  slots := h'.slots ∘ h.slots
  clock := h'.clock ∘ h.clock
  gains := h'.gains ∘ h.gains
  elapsed := h'.elapsed ∘ h.elapsed
  lines := h'.lines ∘ h.lines

theorem ite {s t u : State} {p : Prop} [Decidable p] (ht : p → s.Keeps t) (hu : ¬ p → s.Keeps u) :
    s.Keeps (if p then t else u) := by
  split
  · next h => exact ht h
  · next h => exact hu h

end State.Keeps

variable (s : State)

/-! ### Blocks without an invariant, and the reply queue -/

theorem State.mapSli_keeps (f : Sli → Sli) : s.Keeps (s.mapSli f) where
theorem State.mapPmn_keeps (f : Pmn → Pmn) : s.Keeps (s.mapPmn f) where
theorem State.mapCsq_keeps (f : Csq → Csq) : s.Keeps (s.mapCsq f) where
theorem State.mapTun_keeps (f : Tun → Tun) : s.Keeps (s.mapTun f) where
theorem State.mapFrame_keeps (f : FrameEnd → FrameEnd) : s.Keeps (s.mapFrame f) where

/-- Records and counters are no part of the fill. -/
theorem Cch.fill_congr {c d : Cch} (hf : d.fifo = c.fifo) (ht : d.tail = c.tail) : d.fill = c.fill := by
  simp [Cch.fill, hf, ht]

@[simp] theorem Cch.enqueue_fill (r : Record) (c : Cch) : (c.enqueue r).fill = c.fill :=
  Cch.fill_congr (Cch.enqueue_frame r c).2.1 (Cch.enqueue_frame r c).2.2.1

@[simp] theorem State.raise_fill (k : RecordKind) (t : Byte) (c : Code) (b : List Word24) :
    (s.raise k t c b).cch.fill = s.cch.fill := rfl

theorem Cch.foldl_enqueue_fill (rs : List Record) (c : Cch) :
    (rs.foldl (fun c r => c.enqueue r) c).fill = c.fill := by
  induction rs generalizing c with
  | nil => rfl
  | cons r rs ih => rw [List.foldl_cons, ih, Cch.enqueue_fill]

@[simp] theorem State.deliver_fill : s.deliver.cch.fill = s.cch.fill :=
  Cch.foldl_enqueue_fill _ _

theorem State.deliver_keeps : s.Keeps s.deliver where

theorem State.raise_keeps (k : RecordKind) (t : Byte) (c : Code) (b : List Word24) :
    s.Keeps (s.raise k t c b) where

theorem State.Keeps.delivered {s t : State} (h : s.Keeps t) : s.Keeps t.deliver :=
  h.trans t.deliver_keeps

@[simp] theorem State.armReport_fill (i : SlotNo) (t : StgSlot) (c : Code) :
    (s.armReport i t c).cch.fill = s.cch.fill := rfl

theorem State.armReport_keeps (i : SlotNo) (t : StgSlot) (c : Code) : s.Keeps (s.armReport i t c) :=
  s.raise_keeps _ _ _ _

theorem State.switchReport_keeps (r : Request) (c : Code) (f d : Option SceneNo) (v e : Bool) :
    s.Keeps (s.switchReport r c f d v e) := s.raise_keeps _ _ _ _

theorem State.cueReport_keeps (c : Code) (e r i b : Nat) (l : Bool) (n : Nat) :
    s.Keeps (s.cueReport c e r i b l n) := s.raise_keeps _ _ _ _

theorem State.tempoReport_keeps (a : Source) (t : Byte) (b : Bool) : s.Keeps (s.tempoReport a t b) :=
  s.raise_keeps _ _ _ _

theorem State.gateReport_keeps (d : Dispatch) (g : GateNo) (e : Option GateNo) (c : Code) :
    s.Keeps (s.gateReport d g e c) := s.raise_keeps _ _ _ _

theorem State.pedalReport_keeps (e n : Nat) (d : Bool) (v : Nat) : s.Keeps (s.pedalReport e n d v) :=
  .ite (fun _ => s.raise_keeps _ _ _ _) fun _ => .refl s

theorem State.tuneReport_keeps : s.Keeps s.tuneReport := by
  unfold State.tuneReport
  dsimp only
  split <;> exact s.raise_keeps _ _ _ _

theorem State.followTuner_keeps (old : TunerState) : s.Keeps (s.followTuner old) where
theorem State.tunerSceneChange_keeps : s.Keeps s.tunerSceneChange where

/-! ### Slots (R123, R124) -/

/-- Slots that hold no other scenes than before, and are LIVE or FADING only where they were. -/
theorem Stg.Legal.of_slots {g g' : Stg} {b b' : Bool} (h : g.Legal b)
    (hscene : ∀ i n, (g'.slots.get i).scene = some n → (g.slots.get i).scene = some n)
    (hlive : ∀ i, (g'.slots.get i).state = .live → (g.slots.get i).state = .live)
    (hfading : ∀ i, (g'.slots.get i).state = .fading → (g.slots.get i).state = .fading)
    (hb : b = true → b' = true) : g'.Legal b' where
  scenes i j n hi hj := h.scenes i j n (hscene i n hi) (hscene j n hj)
  live i j hi hj := h.live i j (hlive i hi) (hlive j hj)
  fading i j hi hj := h.fading i j (hfading i hi) (hfading j hj)
  flight i hi := hb (h.flight i (hfading i hi))

/-- Slot `i` may be replaced by one that holds no other scene and is not LIVE or FADING anew. -/
theorem Stg.Legal.upd {g : Stg} {b : Bool} (h : g.Legal b) {i : SlotNo} {t : StgSlot}
    (hscene : ∀ n, t.scene = some n → (g.slots.get i).scene = some n)
    (hlive : t.state = .live → (g.slots.get i).state = .live)
    (hfading : t.state = .fading → (g.slots.get i).state = .fading) {g' : Stg}
    (hg : g'.slots = Machine.upd g.slots i t) : g'.Legal b := by
  refine h.of_slots ?_ ?_ ?_ id <;> intro j <;> rw [hg, upd_get] <;> split
  case refine_1.isTrue hij => exact hij ▸ hscene
  case refine_2.isTrue hij => exact hij ▸ hlive
  case refine_3.isTrue hij => exact hij ▸ hfading
  all_goals simp

/-- Every slot may be changed by a function that keeps its scene and its state. -/
theorem Stg.Legal.vmap {g : Stg} {b : Bool} (h : g.Legal b) {f : StgSlot → StgSlot}
    (hf : ∀ t, (f t).scene = t.scene ∧ (f t).state = t.state) {g' : Stg}
    (hg : g'.slots = Machine.vmap f g.slots) : g'.Legal b := by
  refine h.of_slots ?_ ?_ ?_ id <;> intro j <;> simp [hg, hf]

theorem State.setSlot_keeps (i : SlotNo) (f : StgSlot → StgSlot)
    (hscene : ∀ n, (f (s.stg.slots.get i)).scene = some n → (s.stg.slots.get i).scene = some n)
    (hlive : (f (s.stg.slots.get i)).state = .live → (s.stg.slots.get i).state = .live)
    (hfading : (f (s.stg.slots.get i)).state = .fading → (s.stg.slots.get i).state = .fading) :
    s.Keeps (s.setSlot i f) where
  slots h := h.upd hscene hlive hfading rfl

/-- The orders of the slots and the loader's wait are no part of the invariants. -/
theorem State.mapStg_keeps (f : Stg → Stg) (h : (f s.stg).slots = s.stg.slots) :
    s.Keeps (s.mapStg f) where
  slots hl := by
    rw [State.mapStg_stg, State.mapStg_swu]
    exact hl.of_slots (by simp [h]) (by simp [h]) (by simp [h]) id

theorem State.emptySlot_keeps (i : SlotNo) : s.Keeps (s.emptySlot i) where
  slots h := by
    rw [(s.emptySlot_frame i).2.2.2.1]
    exact h.upd (i := i) (t := StgSlot.vacant) (by simp [StgSlot.vacant]) (by simp [StgSlot.vacant])
      (by simp [StgSlot.vacant]) rfl

theorem Stg.find_some {g : Stg} {p : StgSlot → Bool} {i : SlotNo} (h : g.find p = some i) :
    p (g.slots.get i) = true := List.find?_some (p := fun i => p (g.slots.get i)) h

theorem Stg.holding_scene {g : Stg} {n : SceneNo} {i : SlotNo} (h : g.holding n = some i) :
    (g.slots.get i).scene = some n := by simpa using Stg.find_some h

theorem Stg.not_holding {g : Stg} {n : SceneNo} (h : g.holding n = none) (i : SlotNo) :
    (g.slots.get i).scene ≠ some n := by
  intro hi
  obtain ⟨j, hj⟩ := Stg.find_isSome (g := g) (p := fun t => t.scene == some n) i (by simp [hi])
  exact absurd (h.symm.trans hj) (by simp)

theorem State.queueSlot_get (i j : SlotNo) (a : ArmRequest) :
    (s.queueSlot i a).stg.slots.get j =
      if i = j then
        { StgSlot.vacant with
          state := .queued, scene := some a.scene, pinned := a.pin, cuePin := a.cuePin
          demanded := a.demand, origin := a.origin, tag := a.tag, fresh := true }
      else s.stg.slots.get j := by
  simp only [State.queueSlot, State.mapStg_stg, upd_get, State.emptySlot]
  split <;> rfl

/-- A scene that no slot holds is queued in a slot (R124). -/
theorem State.queueSlot_keeps (i : SlotNo) (a : ArmRequest) (h : s.stg.holding a.scene = none) :
    s.Keeps (s.queueSlot i a) where
  slots hl := by
    rw [(s.queueSlot_frame i a).2.2.2.1]
    refine ⟨fun j k n => ?_, fun j k => ?_, fun j k => ?_, fun j => ?_⟩ <;>
      simp only [State.queueSlot_get]
    · have hfree := Stg.not_holding h
      split <;> split <;> intro hj hk
      · next hij hik => exact hij.symm.trans hik
      · exact absurd (hk.trans hj.symm) (hfree k)
      · exact absurd (hj.trans hk.symm) (hfree j)
      · exact hl.scenes j k n hj hk
    · split <;> split <;> intro hj hk
      case isFalse.isFalse => exact hl.live j k hj hk
      all_goals simp at hj hk
    · split <;> split <;> intro hj hk
      case isFalse.isFalse => exact hl.fading j k hj hk
      all_goals simp at hj hk
    · split
      · simp
      · exact hl.flight j

theorem State.armRequest_keeps (a : ArmRequest) : s.Keeps (s.armRequest a).1 := by
  unfold State.armRequest
  split
  · split
    · exact s.setSlot_keeps _ _ (fun _ => id) id id
    · next hfree =>
      split
      · exact .refl s
      · exact s.queueSlot_keeps _ a hfree
  · exact .refl s

theorem State.clearDemand_keeps (n : Option SceneNo) : s.Keeps (s.clearDemand n) := by
  unfold State.clearDemand
  split
  · exact s.setSlot_keeps _ _ (fun _ => id) id id
  · exact .refl s

theorem State.clearCuePins_keeps : s.Keeps s.clearCuePins where
  slots h := h.vmap (f := fun t => { t with cuePin := false }) (fun _ => ⟨rfl, rfl⟩) rfl

theorem State.startPreparation_keeps (i : SlotNo) (n : Nat) : s.Keeps (s.startPreparation i n) :=
  (s.setSlot_keeps i (fun t => { t with state := .preparing, remaining := n }) (fun _ => id)
    (by simp) (by simp)).trans (State.mapStg_keeps _ _ rfl)

theorem State.completePreparation_keeps (i : SlotNo) : s.Keeps (s.completePreparation i) :=
  ((s.setSlot_keeps i (fun t =>
      { t with state := .ready, remaining := 0, image := t.scene.map fun n => s.tbm.image n })
    (fun _ => id) (by simp) (by simp)).trans (State.mapStg_keeps _ _ rfl)).trans
      (State.armReport_keeps _ _ _ _)

/-! ### Switch requests and the return stack (R135, R136, R162–R168) -/

theorem State.mapSwu_keeps (f : Swu → Swu) (hs : s.swu.StackLegal → (f s.swu).StackLegal)
    (hc : (f s.swu).crossfade.isSome = s.swu.crossfade.isSome)
    (he : s.swu.ElapsedLegal → (f s.swu).ElapsedLegal) : s.Keeps (s.mapSwu f) where
  stack := by simpa using hs
  slots := by simp [hc]
  elapsed := by simpa using he

theorem State.removePending_keeps (c : Code) (frm : Option SceneNo) :
    s.Keeps (s.removePending c frm) := by
  unfold State.removePending
  split
  · exact .refl s
  · exact ((s.mapSwu_keeps _ id rfl id).trans (State.clearDemand_keeps _ _)).trans
      (State.switchReport_keeps _ _ _ _ _ _ _)

theorem State.refusePending_keeps (c : Code) : s.Keeps (s.refusePending c) :=
  s.removePending_keeps c _

theorem State.makePending_keeps (r : Request) : s.Keeps (s.makePending r) :=
  s.mapSwu_keeps _ id rfl id

theorem State.newPending_keeps (r : Request) : s.Keeps (s.newPending r).1 := by
  have hsuper := s.refusePending_keeps .superseded
  unfold State.newPending
  dsimp only
  split
  · exact hsuper.trans (State.makePending_keeps _ r)
  · split
    · exact hsuper
    · exact hsuper
    · exact (hsuper.trans (State.armRequest_keeps _ _)).trans (State.makePending_keeps _ r)

theorem State.setReversal_keeps (r : Option Request) : s.Keeps (s.setReversal r) := by
  refine s.mapSwu_keeps _ id (by simp) fun h x hx => ?_
  obtain ⟨y, hy, rfl⟩ := Option.map_eq_some_iff.mp hx
  exact h y hy

theorem State.turnRequest_keeps (r : Request) : s.Keeps (s.turnRequest r).1 := by
  unfold State.turnRequest
  dsimp only
  split
  · exact (s.removePending_keeps _ _).trans (State.setReversal_keeps _ _)
  · exact ((s.setReversal_keeps _).trans (State.switchReport_keeps _ _ _ _ _ _ _)).trans
      (State.removePending_keeps _ _ _)

theorem State.switchRequest_keeps (r : Request) : s.Keeps (s.switchRequest r).1 := by
  unfold State.switchRequest
  split
  · exact s.refusePending_keeps _
  · split
    · exact s.turnRequest_keeps r
    · exact s.newPending_keeps r

theorem State.baseSwitch_keeps (r : Request) : s.Keeps (s.baseSwitch r).1 := by
  unfold State.baseSwitch
  split
  · exact s.switchRequest_keeps r
  · have hsaved := s.mapSwu_keeps
      (fun u => { u with stack := u.stack.map fun e => { e with saved := r.target } })
      (fun ⟨hlen, htuner⟩ => ⟨by simpa using hlen, by simpa [List.filter_map, Function.comp_def]⟩)
      rfl id
    dsimp only
    split
    · exact hsaved
    · exact hsaved.trans (State.switchRequest_keeps _ r)

/-- An entry pushed on a stack with room, of reason TUNER only where the tuner is not engaged (R162, R168). -/
theorem State.push_keeps (reason : Reason) (o : Option SwitchNo) (hroom : s.swu.stack.length < 4)
    (htuner : reason = .tuner → s.engaged = false) : s.Keeps (s.push reason o) := by
  refine (s.mapSwu_keeps (fun u => { u with stack := u.stack ++ [_] }) (fun ⟨_, hone⟩ => ⟨?_, ?_⟩)
    rfl id).trans (State.followTuner_keeps _ _)
  · simpa using hroom
  · cases reason with
    | momentary => simpa using hone
    | tuner =>
      have hnone : (s.swu.stack.filter fun e => e.reason == .tuner) = [] := by
        simpa [State.engaged] using htuner rfl
      simp [hnone]

/-- Entries removed, and what the others save changed, leave a legal stack (R164, R166). -/
theorem Swu.StackLegal.of_reasons {u u' : Swu} (h : u.StackLegal)
    (hsub : (u'.stack.map StackEntry.reason).Sublist (u.stack.map StackEntry.reason)) :
    u'.StackLegal := by
  have hcount (v : Swu) : (v.stack.filter fun e => e.reason == .tuner).length =
      ((v.stack.map StackEntry.reason).filter (· == .tuner)).length := by
    simp [List.filter_map, Function.comp_def]
  refine ⟨le_trans (by simpa using hsub.length_le) h.1, le_trans ?_ h.2⟩
  rw [hcount, hcount]
  exact (hsub.filter _).length_le

theorem dropInherit_reasons (p : StackEntry → Bool) (es : List StackEntry) :
    ((dropInherit p es).map StackEntry.reason).Sublist (es.map StackEntry.reason) := by
  induction es with
  | nil => exact .slnil
  | cons e es ih =>
    unfold dropInherit
    split
    · cases es with
      | nil => exact List.nil_sublist _
      | cons a rest => exact .cons _ (.refl _)
    · exact ih.cons_cons _

theorem State.dropTop_keeps : s.Keeps s.dropTop :=
  (s.mapSwu_keeps (fun u => { u with stack := u.stack.dropLast })
    (fun h => h.of_reasons ((List.dropLast_sublist _).map _)) rfl id).trans
      (State.followTuner_keeps _ _)

theorem State.dropLower_keeps (p : StackEntry → Bool) : s.Keeps (s.dropLower p) :=
  (s.mapSwu_keeps (fun u => { u with stack := dropInherit p u.stack })
    (fun h => h.of_reasons (dropInherit_reasons p _)) rfl id).trans (State.followTuner_keeps _ _)

theorem State.pop_keeps (b : PopBy) : s.Keeps (s.pop b).1 := by
  unfold State.pop
  split
  · exact .refl s
  · dsimp only
    split
    · exact s.dropTop_keeps
    · exact s.dropTop_keeps.trans (State.switchRequest_keeps _ _)

theorem State.ownerRelease_keeps (f : SwitchNo) : s.Keeps (s.ownerRelease f) :=
  .ite (fun _ => s.pop_keeps _) fun _ => s.dropLower_keeps _

/-! ### Delay lines (R108, R113, R120, R121) -/

theorem Line.free_legal : Line.free.Legal := ⟨by simp [Line.free], by simp [Line.free]⟩

/-- The memory may be emptied, and a line whose times are kept keeps its held one. -/
theorem Line.Legal.of_times {l l' : Line} (h : l.Legal) (hm : l'.mem = l.mem ∨ l'.mem = [])
    (hh : l'.held = none ∨ l'.held = l.held ∧ l'.target = l.target ∧ l'.current = l.current) :
    l'.Legal := by
  refine ⟨?_, fun hn => ?_⟩
  · rcases hm with hm | hm <;> rw [hm]
    · exact h.1
    · simp
  · rcases hh with hh | ⟨hh, ht, hc⟩
    · exact absurd hh hn
    · rw [ht, hc]
      exact h.2 (hh ▸ hn)

theorem Line.Legal.bind {l : Line} (h : l.Legal) (a b : Option SceneNo) : (l.bind a b).Legal := by
  unfold Line.bind
  split
  case h_1 => exact Line.free_legal.of_times (.inl rfl) (.inl rfl)
  all_goals exact h.of_times (.inl rfl) (.inr ⟨rfl, rfl, rfl⟩)

theorem Line.Legal.release {l : Line} (h : l.Legal) (loss : Bool) : (l.release loss).Legal := by
  unfold Line.release
  (repeat' split)
  · exact h.of_times (.inl rfl) (.inl rfl)
  · exact Line.free_legal
  · exact h.of_times (.inl rfl) (.inr ⟨rfl, rfl, rfl⟩)
  · exact h

theorem Line.Legal.swapOwners {l : Line} (h : l.Legal) : l.swapOwners.Legal := by
  unfold Line.swapOwners
  split
  · exact h.of_times (.inl rfl) (.inr ⟨rfl, rfl, rfl⟩)
  · exact h

theorem Line.Legal.linkLoss {l : Line} (h : l.Legal) : l.linkLoss.Legal := by
  unfold Line.linkLoss
  split
  · exact h.of_times (.inr rfl) (.inl rfl)
  · exact Line.free_legal
  · exact h

theorem Line.Legal.fadeEnd {l : Line} (h : l.Legal) : l.fadeEnd.Legal :=
  h.of_times (.inl rfl) (.inl rfl)

theorem Line.Legal.judge {l : Line} (h : l.Legal) (a b c : Nat) : (l.judge a b c).Legal := by
  unfold Line.judge
  dsimp only
  (repeat' split) <;> exact h.of_times (.inl rfl) (.inr ⟨rfl, rfl, rfl⟩)

theorem Line.Legal.advance {l : Line} (h : l.Legal) : l.advance.Legal := by
  unfold Line.advance
  split
  · exact h.of_times (.inl rfl) (.inr ⟨rfl, rfl, rfl⟩)
  · exact h

theorem Line.Legal.write {l : Line} (h : l.Legal) (x : Int) : (l.write x).val.Legal :=
  ⟨by simp [Line.write, Config.lineLength], h.2⟩

@[simp] theorem Line.handed_mem (period : Nat) (st : Stage) (x : Line) :
    (x.handed period st).mem = x.mem := by
  unfold Line.handed
  dsimp only
  (repeat' split) <;> rfl

theorem Line.Legal.handed {l : Line} (h : l.Legal) (period : Nat) (st : Stage) :
    (l.handed period st).Legal :=
  ⟨by simpa using h.1, Line.handed_held period st h.2⟩

theorem Sce.handedLine_legal {x : Line} (h : x.Legal) (e : Sce) (period : Nat) (l : LineNo) :
    (e.handedLine period l x).Legal := by
  unfold Sce.handedLine
  (repeat' split)
  · exact h
  · exact h.handed _ _
  · exact h.handed _ _
  · exact h

theorem State.syncLines_keeps : s.Keeps s.syncLines where
  lines h l := by
    rw [State.syncLines_handed]
    exact Sce.handedLine_legal (h l) _ _ _

/-- Every line may be changed by a function that keeps legal lines legal. -/
theorem State.mapDlu_keeps (f : Dlu → Dlu) (h : s.dlu.Legal → (f s.dlu).Legal) :
    s.Keeps (s.mapDlu f) where
  lines := by simpa using h

theorem Dlu.Legal.vmap {d d' : Dlu} (h : d.Legal) {f : Line → Line} (hf : ∀ l, l.Legal → (f l).Legal)
    (hd : d'.lines = Machine.vmap f d.lines) : d'.Legal := fun l => by
  rw [hd, vmap_get]
  exact hf _ (h l)

theorem State.setLine_keeps (i : LineNo) (f : Line → Line) (hf : ∀ l, l.Legal → (f l).Legal) :
    s.Keeps (s.setLine i f) where
  lines h l := by
    rw [State.setLine_get]
    split
    · exact hf _ (h i)
    · exact h l

theorem State.expireTail_keeps (l : LineNo) : s.Keeps (s.expireTail l) :=
  s.setLine_keeps l _ fun _ _ => Line.free_legal

/-! ### Crossfades (R140–R143) -/

/-- The engine's block with the gains of M and F kept. -/
theorem State.mapSce_keeps (f : Sce → Sce) (hm : (f s.sce).mute = s.sce.mute)
    (hf : (f s.sce).fade = s.sce.fade) : s.Keeps (s.mapSce f) where
  gains h := by simpa [Sce.Legal, hm, hf] using h

@[simp] theorem State.completeCrossfade_fill (loss : Bool) :
    (s.completeCrossfade loss).cch.fill = s.cch.fill := by
  unfold State.completeCrossfade
  split
  · rfl
  · dsimp only
    (repeat' split) <;> simp [State.switchReport]

/-- With the slot that was FADING made READY, none is FADING once the crossfade has ended (R143). -/
theorem Stg.Legal.completed {g : Stg} {b : Bool} (h : g.Legal b) {g' : Stg}
    (hg : g' = match g.fadingSlot with
      | none => g
      | some i => { g with slots := Machine.upd g.slots i { g.slots.get i with state := .ready }
                           readyOrder := i :: g.readyOrder.filter (· != i) }) :
    g'.Legal false := by
  have hready : ∀ i, (g'.slots.get i).state ≠ .fading := by
    intro i hi
    cases hf : g.fadingSlot with
    | none =>
      rw [hf] at hg
      subst hg
      obtain ⟨j, hj⟩ := Stg.find_isSome (g := g') (p := fun t => t.state == .fading) i (by simp [hi])
      exact absurd (hf.symm.trans hj) (by simp)
    | some j =>
      rw [hf] at hg
      subst hg
      simp only [upd_get] at hi
      split at hi
      · cases hi
      · next hne => exact hne (h.fading j i (by simpa using Stg.find_some hf) hi)
  have hkept : g'.Legal b := by
    rw [hg]
    split
    · exact h
    · next i _ =>
        exact h.upd (i := i) (t := { g.slots.get i with state := .ready }) (fun _ => id) (by simp)
          (by simp) rfl
  exact ⟨hkept.scenes, hkept.live, hkept.fading, fun i hi => absurd hi (hready i)⟩

theorem State.completeCrossfade_keeps (loss : Bool) : s.Keeps (s.completeCrossfade loss) := by
  cases h : s.swu.crossfade with
  | none =>
    unfold State.completeCrossfade
    rw [h]
    exact .refl s
  | some x =>
    have hswu := (State.completeCrossfade_sce h loss).2
    have hsce := (State.completeCrossfade_sce h loss).1
    exact {
      slots := fun hl => by
        rw [hswu]
        exact hl.completed (State.completeCrossfade_stg h loss)
      gains := fun hl => by rw [hsce]; exact hl
      elapsed := fun _ y hy => by rw [hswu] at hy; cases hy
      stack := fun hl => by rw [hswu]; exact hl
      lines := fun hl l => by
        rw [State.completeCrossfade_lines loss h]
        exact Sce.handedLine_legal ((hl l).release loss) _ _ _ }

/-- The slots behind a start: the one that was LIVE is FADING, and the READY one of the target is LIVE (R140). -/
theorem Stg.Legal.started {g g' : Stg} {slot : Option SlotNo} (h : g.Legal false)
    (hg : ∀ j, g'.slots.get j = g.startedSlot slot j) : g'.Legal true := by
  have hnone (i : SlotNo) : (g.slots.get i).state ≠ .fading := fun hi => absurd (h.flight i hi) (by simp)
  have hscene (j : SlotNo) : (g'.slots.get j).scene = (g.slots.get j).scene := by
    rw [hg, Stg.startedSlot]
    (repeat' split) <;> rfl
  have hslot (j : SlotNo) (hj : (g'.slots.get j).state = .live) : slot = some j := by
    by_contra hne
    rw [hg, Stg.startedSlot, if_neg hne] at hj
    split at hj
    · cases hj
    · next hlive =>
      obtain ⟨i, hi⟩ := Stg.find_isSome (g := g) (p := fun t => t.state == .live) j (by simp [hj])
      exact hlive (h.live i j (by simpa using Stg.find_some hi) hj ▸ hi)
  have hold (j : SlotNo) (hj : (g'.slots.get j).state = .fading) : g.liveSlot = some j := by
    by_contra hne
    rw [hg, Stg.startedSlot, if_neg hne] at hj
    split at hj
    · cases hj
    · exact hnone j hj
  refine ⟨fun i j n hi hj => ?_, fun i j hi hj => ?_, fun i j hi hj => ?_, fun _ _ => rfl⟩
  · exact h.scenes i j n (hscene i ▸ hi) (hscene j ▸ hj)
  · exact Option.some.inj ((hslot i hi).symm.trans (hslot j hj))
  · exact Option.some.inj ((hold i hi).symm.trans (hold j hj))

/-- What the conditions of a start say (R139). -/
theorem State.startReady_iff : s.startReady = true ↔ s.swu.crossfade = none ∧ ∃ p, s.swu.pending = some p ∧
    p.passed = true ∧ p.fresh = false ∧
    ∀ n, p.req.target = some n → ∃ i, s.stg.holding n = some i ∧ (s.stg.slots.get i).state = .ready := by
  unfold State.startReady
  cases hx : s.swu.crossfade <;> cases hp : s.swu.pending <;> simp
  next p =>
    cases ht : p.req.target with
    | none => simp
    | some n => cases hh : s.stg.holding n <;> simp [and_assoc, hh]

theorem State.startCrossfade_keeps (h : s.startReady = true) : s.Keeps s.startCrossfade := by
  obtain ⟨hx, p, hp, -, -, hready⟩ := s.startReady_iff.mp h
  obtain ⟨u, ⟨V, L, hV, hL, hu⟩, hstart⟩ := State.startCrossfade_eq p _ _ hp rfl rfl (fun i hi => by
    obtain ⟨n, hn, hi⟩ := Option.bind_eq_some_iff.mp hi
    obtain ⟨j, hj, hst⟩ := hready n hn
    exact Option.some.inj (hi.symm.trans hj) ▸ hst)
  have hkeep : s.Keeps u := by
    subst hu
    exact {
      slots := fun hl => by
        rw [hx] at hl
        exact hl.started hV
      gains := id
      stack := id
      elapsed := fun _ y hy => by cases hy; exact Nat.zero_le _
      lines := fun hl l => by
        rw [show _ = _ from hL l]
        exact (hl l).bind _ _ }
  have hsync := (hkeep.trans u.syncLines_keeps).trans u.syncLines.tunerSceneChange_keeps
  rw [hstart]
  exact .ite (fun _ => hsync.trans (State.completeCrossfade_keeps _ _)) fun _ => hsync

theorem StgSlot.swapRole_scene (t : StgSlot) : t.swapRole.scene = t.scene := by
  unfold StgSlot.swapRole
  split <;> rfl

theorem StgSlot.swapRole_live {t : StgSlot} (h : t.swapRole.state = .live) : t.state = .fading := by
  unfold StgSlot.swapRole at h
  split at h <;> simp_all

theorem StgSlot.swapRole_fading {t : StgSlot} (h : t.swapRole.state = .fading) : t.state = .live := by
  unfold StgSlot.swapRole at h
  split at h <;> simp_all

/-- The roles exchanged while a crossfade is in flight (R142). -/
theorem Stg.Legal.swapped {g g' : Stg} {b : Bool} (h : g.Legal b) (hb : b = true)
    (hg : g'.slots = Machine.vmap StgSlot.swapRole g.slots) : g'.Legal b := by
  refine ⟨fun i j n => ?_, fun i j hi hj => ?_, fun i j hi hj => ?_, fun _ _ => hb⟩
  · simpa only [hg, vmap_get, StgSlot.swapRole_scene] using h.scenes i j n
  · rw [hg, vmap_get] at hi hj
    exact h.fading i j (StgSlot.swapRole_live hi) (StgSlot.swapRole_live hj)
  · rw [hg, vmap_get] at hi hj
    exact h.live i j (StgSlot.swapRole_fading hi) (StgSlot.swapRole_fading hj)

theorem State.takeReversal_keeps : s.Keeps s.takeReversal := by
  unfold State.takeReversal
  split
  · exact .refl s
  next x hx =>
    split
    · exact .refl s
    · have hslots : s.Keeps (s.mapStg fun g => { g with slots := vmap StgSlot.swapRole g.slots }) := {
        slots := fun h => by simpa using h.swapped (by simp [hx]) rfl }
      have hlines := (hslots.trans (State.mapSce_keeps _
          (fun e => { e with live := e.fading, fading := e.live }) rfl rfl)).trans
        (State.mapDlu_keeps _ (fun d => { d with lines := vmap Line.swapOwners d.lines })
          fun h => h.vmap (fun _ => Line.Legal.swapOwners) rfl)
      dsimp only
      refine (((hlines.trans (State.mapSwu_keeps _ _ id (by simp [hx]) fun _ y hy => ?_)).trans
        (State.syncLines_keeps _)).trans (State.tunerSceneChange_keeps _)).trans
          (State.switchReport_keeps _ _ _ _ _ _ _)
      cases hy
      exact Nat.sub_le _ _

/-! ### The tempo clock (9.1) -/

theorem State.mapTck_keeps (f : Tck → Tck) (h : s.tck.Legal → (f s.tck).Legal) :
    s.Keeps (s.mapTck f) where
  clock := by simpa using h

/-- A burst begun (R179), and a phase and a beat at their start (R171). -/
theorem Tck.Legal.burstStarted {t : Tck} (h : t.Legal) (b : Option BurstKind) :
    Tck.Legal { t with burstPos := 0, burst := b } :=
  ⟨h.period, h.phase, h.beat, h.meter, h.history, h.count, h.levels, Nat.zero_le _⟩

theorem Tck.Legal.retimed {t : Tck} (h : t.Legal) {P : Nat} (hP : 12000 ≤ P ∧ P ≤ 144000) :
    Tck.Legal { t with period := P, phase := 0 } :=
  ⟨hP, by dsimp only; omega, h.beat, h.meter, h.history, h.count, h.levels, h.burst⟩

theorem Tck.Legal.nextBeat {t : Tck} (h : t.Legal) : Tck.Legal { t with phase := 0, beat := t.nextBeat } := by
  have hbeat := h.beat
  have hperiod := h.period
  refine ⟨hperiod, by dsimp only; omega, ?_, h.meter, h.history, h.count, h.levels, h.burst⟩
  unfold Tck.nextBeat
  dsimp only
  split <;> omega

theorem State.clickBoundary_keeps : s.Keeps s.clickBoundary :=
  .ite (fun _ => s.mapTck_keeps _ fun h => h.burstStarted _) fun _ => .refl s

theorem State.latchPending_keeps (b : Bool) : s.Keeps (s.latchPending b) := s.mapSwu_keeps _ id rfl id

theorem State.raiseBoundary_keeps (a b : Bool) : s.Keeps (s.raiseBoundary a b) := by
  have hcsq := (s.latchPending_keeps b).trans (State.mapCsq_keeps _ (Csq.takeBoundary a b))
  exact .ite (fun _ => hcsq) fun _ => hcsq.trans (State.clickBoundary_keeps _)

theorem State.advancingBoundary_keeps : s.Keeps s.advancingBoundary :=
  (s.mapTck_keeps _ fun h => h.nextBeat).trans (State.raiseBoundary_keeps _ _ _)

theorem State.risePhase_keeps : s.Keeps s.risePhase :=
  .ite (fun _ => s.advancingBoundary_keeps) fun hlt => s.mapTck_keeps _ fun h =>
    ⟨h.period, not_le.mp hlt, h.beat, h.meter, h.history, h.count, h.levels, h.burst⟩

theorem periodOf_range (tempo : Nat) : 12000 ≤ periodOf tempo ∧ periodOf tempo ≤ 144000 := by
  unfold periodOf
  generalize ht : max 2000 (min tempo 24000) = t
  have ht1 : 2000 ≤ t := by omega
  have ht2 : t ≤ 24000 := by omega
  dsimp only
  refine ⟨(Nat.le_div_iff_mul_le (by omega)).mpr (by omega), ?_⟩
  exact Nat.lt_succ_iff.mp ((Nat.div_lt_iff_lt_mul (by omega)).mpr (by omega))

/-- A new period with the tap series closed, at phase 0 (R173). -/
theorem Tck.Legal.newTempo {t : Tck} (h : t.Legal) {P : Nat} (hP : 12000 ≤ P ∧ P ≤ 144000) :
    Tck.Legal { t with period := P, phase := 0, tapOpen := false, tapHistory := [] } :=
  ⟨hP, by dsimp only; omega, h.beat, h.meter, by simp, h.count, h.levels, h.burst⟩

theorem State.takePeriod_keeps {P : Nat} (hP : 12000 ≤ P ∧ P ≤ 144000) : s.Keeps (s.takePeriod P) := by
  unfold State.takePeriod
  refine .trans ?_ (State.syncLines_keeps _)
  refine .ite (fun _ => ?_) fun hmid => s.mapTck_keeps _ fun h => ?_
  · exact (s.mapTck_keeps
      (fun t => { t with period := P, phase := 0, tapOpen := false, tapHistory := [] })
      fun h => h.newTempo hP).trans (State.raiseBoundary_keeps _ _ _)
  · have hphase : s.tck.phase = 0 := not_not.mp hmid
    exact ⟨hP, by dsimp only; omega, h.beat, h.meter, by simp, h.count, h.levels, h.burst⟩

/-- The mean of a history lies in the range of its intervals (R177). -/
theorem mean_range {h : List Nat} (hne : h ≠ []) {a b : Nat} (hr : ∀ n ∈ h, a ≤ n ∧ n ≤ b) :
    a ≤ h.sum / h.length ∧ h.sum / h.length ≤ b := by
  have hpos : 0 < h.length := List.length_pos_iff.mpr hne
  have hlow : h.length * a ≤ h.sum := by
    simpa using List.card_nsmul_le_sum h a fun n hn => (hr n hn).1
  have hhigh : h.sum ≤ h.length * b := by
    simpa using List.sum_le_card_nsmul h b fun n hn => (hr n hn).2
  refine ⟨(Nat.le_div_iff_mul_le hpos).mpr (by rwa [Nat.mul_comm]), ?_⟩
  exact (Nat.div_le_of_le_mul hhigh)

theorem State.tapPeriod_keeps (src : Source) (tag : Byte) (hne : s.tck.tapHistory ≠ []) :
    s.Keeps (s.tapPeriod src tag) := by
  have hP (h : s.tck.Legal) := mean_range hne h.history.2
  unfold State.tapPeriod
  refine .trans (.trans ?_ (State.syncLines_keeps _)) (State.tempoReport_keeps _ _ _ _)
  refine .ite (fun hphase => s.mapTck_keeps _ fun h => ?_) fun _ => .ite (fun _ => ?_) fun _ => ?_
  · have hP := hP h
    exact ⟨hP, by dsimp only; omega, h.beat, h.meter, h.history, h.count, h.levels, h.burst⟩
  · exact (s.mapTck_keeps
      (fun t => { t with
        period := s.tck.tapHistory.sum / s.tck.tapHistory.length, phase := 0, beat := t.nextBeat })
      fun h => (h.retimed (hP h)).nextBeat).trans (State.raiseBoundary_keeps _ _ _)
  · exact (s.mapTck_keeps
      (fun t => { t with period := s.tck.tapHistory.sum / s.tck.tapHistory.length, phase := 0 })
      fun h => h.retimed (hP h)).trans (State.raiseBoundary_keeps _ _ _)

/-- A tap series opened, started again or gone on with (R176). -/
theorem Tck.Legal.tapped {t : Tck} (h : t.Legal) (o : Bool) {hist : List Nat} (hlen : hist.length ≤ 4)
    (hmem : ∀ n ∈ hist, 12000 ≤ n ∧ n ≤ 144000) :
    Tck.Legal { t with tapOpen := o, tapCount := 0, tapHistory := hist } :=
  ⟨h.period, h.phase, h.beat, h.meter, ⟨hlen, hmem⟩, Nat.zero_le _, h.levels, h.burst⟩

theorem State.tapEvent_keeps (src : Source) (tag : Byte) : s.Keeps (s.tapEvent src tag).1 := by
  unfold State.tapEvent
  dsimp only
  (repeat' split) <;> dsimp only
  · exact s.mapTck_keeps _ fun h => h.tapped (hist := []) true (Nat.zero_le 4) (by simp)
  · exact .refl s
  next hlow hhigh =>
    refine (s.mapTck_keeps _ fun h => h.tapped s.tck.tapOpen ?_ fun n hn => ?_).trans
      (State.tapPeriod_keeps _ _ _ fun hnil => ?_)
    · simp only [List.length_drop, List.length_append, List.length_singleton]
      omega
    · rcases List.mem_append.mp (List.mem_of_mem_drop hn) with hn | hn
      · exact h.history.2 n hn
      · rw [List.mem_singleton.mp hn]
        exact ⟨not_lt.mp hlow, hhigh⟩
    · have hlen := congrArg List.length hnil
      simp at hlen
      omega
  · exact s.mapTck_keeps _ fun h => h.tapped (hist := []) s.tck.tapOpen (Nat.zero_le 4) (by simp)

/-! ### The cue sequencer (9.2) -/

theorem State.applyTempo_keeps (n : Nat) : s.Keeps (s.applyTempo n) :=
  .ite (fun _ => .refl s) fun _ => s.takePeriod_keeps (periodOf_range n)

theorem State.lookAhead_keeps (i : Nat) : s.Keeps (s.lookAhead i).1 := by
  have hpins := s.clearCuePins_keeps
  unfold State.lookAhead
  dsimp only
  (repeat' split) <;> dsimp only
  · exact hpins.trans (State.mapCsq_keeps _ _)
  · exact (hpins.trans (State.mapCsq_keeps _ _)).trans (State.armRequest_keeps _ _)
  · exact hpins.trans (State.mapCsq_keeps _ _)

theorem State.cueSwitch_keeps (q : Cue) : s.Keeps (s.cueSwitch q).1 := by
  unfold State.cueSwitch
  split
  · exact .refl s
  · exact s.baseSwitch_keeps _

theorem State.loadRecord_keeps (i : Nat) : s.Keeps (s.loadRecord i) :=
  ((((s.applyTempo_keeps _).trans (State.mapCsq_keeps _ _)).trans (State.cueSwitch_keeps _ _)).trans
    (State.lookAhead_keeps _ i)).trans (State.cueReport_keeps _ _ _ _ _ _ _ _)

theorem State.listEnd_keeps (r : EndReason) (i b : Nat) : s.Keeps (s.listEnd r i b) :=
  (s.clearCuePins_keeps.trans (State.mapCsq_keeps _ _)).trans (State.cueReport_keeps _ _ _ _ _ _ _ _)

theorem State.mapTbm_keeps (f : Tbm → Tbm) (hm : s.tbm.mem.wf = true → (f s.tbm).mem.wf = true)
    (hl : (f s.tbm).gateLimit = s.tbm.gateLimit) : s.Keeps (s.mapTbm f) where
  mem := by simpa using hm
  limit := by simp [hl]

theorem State.leaveResidue_keeps (i : Nat) : s.Keeps (s.leaveResidue i) :=
  .ite (fun _ => s.mapTbm_keeps _ (Tbm.writeResidue_wf i _) rfl) fun _ => .refl s

theorem State.followOn_keeps (i : Nat) : s.Keeps (s.followOn i) :=
  .ite (fun _ => .ite (fun _ => s.loadRecord_keeps _) fun _ => s.listEnd_keeps _ _ _)
    fun _ => s.listEnd_keeps _ _ _

theorem State.endCue_keeps : s.Keeps s.endCue := by
  unfold State.endCue
  split
  · exact .refl s
  · exact (s.leaveResidue_keeps _).trans (State.followOn_keeps _ _)

theorem State.skipCue_keeps : s.Keeps s.skipCue := by
  unfold State.skipCue
  split
  · exact .refl s
  · (repeat' split)
    case isFalse.isFalse.isFalse.isFalse => exact s.loadRecord_keeps _
    all_goals exact s.listEnd_keeps _ _ _

theorem State.stopList_keeps : s.Keeps s.stopList := by
  unfold State.stopList
  split
  · split
    · exact .refl s
    · exact (s.mapCsq_keeps _).trans (State.listEnd_keeps _ _ _ _)
  · exact s.listEnd_keeps _ _ _
  all_goals
    split
    · exact s.listEnd_keeps _ _ _
    · exact (s.leaveResidue_keeps _).trans (State.listEnd_keeps _ _ _ _)

theorem State.cueStart_keeps (l : Fin 16) (n : Nat) (t : Byte) : s.Keeps (s.cueStart l n t).1 := by
  unfold State.cueStart
  split <;> dsimp only
  · exact .refl s
  · exact s.stopList_keeps.trans (State.mapCsq_keeps _ _)

theorem State.holdOp_keeps (h : HeldOp) : s.Keeps (s.holdOp h).1 := by
  have hplaying : s.Keeps
      (if s.csq.heldOp = some h then (s, Code.already)
        else (s.mapCsq fun c => { c with heldOp := some h }, .accepted)).1 := by
    split
    · exact .refl s
    · exact s.mapCsq_keeps fun c => { c with heldOp := some h }
  unfold State.holdOp
  split
  · exact .refl s
  · exact .refl s
  all_goals exact hplaying

theorem State.cueOp_keeps (op : CueOp) : s.Keeps (s.cueOp op).1 := by
  unfold State.cueOp
  cases op <;> dsimp only
  case advance => exact s.holdOp_keeps _
  case skip => exact s.holdOp_keeps _
  all_goals split <;> dsimp only
  case vamp.isTrue | hold.isTrue | resume.isTrue => exact s.mapCsq_keeps _
  case stop.isFalse => exact s.stopList_keeps
  all_goals exact .refl s

theorem CueDue.action_keeps (d : CueDue) : s.Keeps (d.action s) := by
  cases d <;> simp only [CueDue.action]
  case countInStart =>
    unfold State.beginCountIn
    split
    · exact .refl s
    · exact ((s.mapCsq_keeps _).trans (State.applyTempo_keeps _ _)).trans
        (State.cueReport_keeps _ _ _ _ _ _ _ _)
  case countInEnd =>
    unfold State.endCountIn
    split
    · exact .refl s
    · exact s.loadRecord_keeps _
  case cueEnd => exact s.endCue_keeps
  case vampReload =>
    unfold State.reloadVamp
    split
    · exact .refl s
    · exact s.mapCsq_keeps _
  case heldAdvance => exact (s.mapCsq_keeps _).trans (State.endCue_keeps _)
  case heldSkip => exact (s.mapCsq_keeps _).trans (State.skipCue_keeps _)

theorem State.beginList_keeps : s.Keeps s.beginList := by
  unfold State.beginList
  split
  · exact .refl s
  · exact (s.mapCsq_keeps _).trans (State.loadRecord_keeps _ _)

/-! ### Gates and pedals (8.1, 8.2) -/

@[simp] theorem Sce.mapCopy_gains (r : CopyRole) (f : Copy → Copy) (e : Sce) :
    (e.mapCopy r f).mute = e.mute ∧ (e.mapCopy r f).fade = e.fade := by
  cases r <;> exact ⟨rfl, rfl⟩

theorem State.mapCopy_keeps (r : CopyRole) (f : Copy → Copy) : s.Keeps (s.mapSce (Sce.mapCopy r f)) :=
  s.mapSce_keeps _ (by simp) (by simp)

theorem State.toggleStage_keeps (i : Nat) : s.Keeps (s.toggleStage i).1 := by
  unfold State.toggleStage
  (repeat' split) <;> dsimp only
  · exact .refl s
  · exact .refl s
  · exact s.mapCopy_keeps _ _

theorem State.momentaryPush_keeps (g : GateNo) (r : Gate) (d : Dispatch) :
    s.Keeps (s.momentaryPush g r d).1 := by
  unfold State.momentaryPush
  split
  · exact .refl s
  next hroom =>
    have hpush := (s.push_keeps .momentary d.owner (not_le.mp hroom) (by simp)).trans
      (State.switchRequest_keeps _ (gateRequest g r .none d))
    dsimp only
    split
    · exact hpush.trans (State.dropTop_keeps _)
    · exact hpush

theorem State.tunerGate_keeps (g : GateNo) (d : Dispatch) : s.Keeps (s.tunerGate g d).1 := by
  unfold State.tunerGate
  split
  · split
    · exact s.pop_keeps _
    · exact s.dropLower_keeps _
  next hengaged =>
    split
    · exact .refl s
    next hroom =>
      exact s.push_keeps .tuner d.owner (not_le.mp hroom) fun _ => Bool.eq_false_iff.mpr hengaged

theorem State.gateAction_keeps (g : GateNo) (r : Gate) (d : Dispatch) :
    s.Keeps (s.gateAction g r d).1 := by
  unfold State.gateAction
  split
  case h_1 => exact s.baseSwitch_keeps _
  case h_2 =>
    unfold State.momentaryGate
    split
    · exact s.baseSwitch_keeps _
    · exact s.momentaryPush_keeps g r d
  case h_3 => exact s.pop_keeps _
  case h_4 => exact s.tunerGate_keeps g d
  case h_5 => exact s.toggleStage_keeps _
  case h_6 =>
    unfold State.cueStartGate
    split
    · exact s.cueStart_keeps _ _ _
    · exact .refl s
  case h_7 =>
    unfold State.cueOpGate
    split
    · exact s.cueOp_keeps _
    · exact .refl s
  case h_8 => exact s.tapEvent_keeps _ _

theorem State.dispatchElse_keeps (d : Dispatch) (g : GateNo) : s.Keeps (s.dispatchElse d g).1 := by
  unfold State.dispatchElse
  (repeat' split)
  · exact .refl s
  · exact s.gateAction_keeps _ _ _
  · exact .refl s

theorem State.dispatch_keeps (d : Dispatch) (g : GateNo) : s.Keeps (s.dispatch d g).1 := by
  unfold State.dispatch
  (repeat' split)
  · exact .refl s
  · exact s.gateAction_keeps _ _ _
  · exact s.dispatchElse_keeps _ _
  · exact .refl s

theorem State.footGate_keeps (f : SwitchNo) (b : Bool) (e : Nat) (g : Option GateNo) :
    s.Keeps (s.footGate f b e g) := by
  cases g with
  | none => exact .refl s
  | some g =>
    exact .ite (fun _ => (s.dispatch_keeps _ g).trans (State.gateReport_keeps _ _ _ _ _))
      fun _ => s.dispatch_keeps _ g

theorem State.setSwitch_keeps (i : SwitchNo) (f : Footswitch → Footswitch) : s.Keeps (s.setSwitch i f) :=
  s.mapPmn_keeps _

theorem State.pressEvent_keeps (f : SwitchNo) : s.Keeps (s.pressEvent f) := by
  have hreport := (s.setSwitch_keeps f fun x => { x with state := .pressed }).trans
    (State.pedalReport_keeps _ 0 f.val (s.tbm.holdGate f).isSome 0)
  exact .ite (fun _ => hreport.trans (State.setSwitch_keeps _ _ _))
    fun _ => hreport.trans (State.footGate_keeps _ _ _ _ _)

theorem State.holdEvent_keeps (f : SwitchNo) : s.Keeps (s.holdEvent f) :=
  ((s.setSwitch_keeps f _).trans (State.pedalReport_keeps _ _ _ _ _)).trans
    (State.footGate_keeps _ _ _ _ _)

theorem State.releaseEvent_keeps (f : SwitchNo) : s.Keeps (s.releaseEvent f) := by
  have hreport := (s.setSwitch_keeps f
    fun x => { x with state := .released, deferred := false, hold := 0 }).trans
      (State.pedalReport_keeps _ 2 f.val false 0)
  unfold State.releaseEvent
  dsimp only
  refine .trans (t := if s.owned f = true then _ else _)
    (.ite (fun _ => hreport.trans (State.ownerRelease_keeps _ f)) fun _ => hreport)
    (.ite (fun _ => State.footGate_keeps _ _ _ _ _) fun _ => .ite (fun _ => .refl _)
      fun _ => State.footGate_keeps _ _ _ _ _)

theorem State.applyExpMaps_keeps (p v : Nat) : s.Keeps (s.applyExpMaps p v) := by
  have hmap (i : Nat) (s : State) : s.Keeps (s.applyExpMap p v i) := by
    unfold State.applyExpMap
    dsimp only
    (repeat' split)
    · exact .refl s
    · exact s.mapCopy_keeps _ _
    · exact .refl s
    · exact .refl s
  exact (((hmap 0 s).trans (hmap 1 _)).trans (hmap 2 _)).trans (hmap 3 _)

theorem State.expressionChange_keeps (b : Bool) (v : Nat) : s.Keeps (s.expressionChange b v) :=
  ((s.mapPmn_keeps _).trans (State.pedalReport_keeps _ _ _ _ _)).trans (State.applyExpMaps_keeps _ _ _)

theorem takeExpressions_keeps (es : List PedalEvent) : s.Keeps (takeExpressions es s) := by
  induction es generalizing s with
  | nil => exact .refl s
  | cons e es ih =>
    cases e with
    | press f => exact .refl s
    | release f => exact .refl s
    | expression b v =>
      exact ((s.mapPmn_keeps _).trans (State.expressionChange_keeps _ b v)).trans (ih _)

theorem State.drainExpressions_keeps : s.Keeps s.drainExpressions :=
  .ite (fun _ => .refl s) fun _ => takeExpressions_keeps s _

theorem State.finishCueDue_keeps (d : CueDue) : s.Keeps (s.finishCueDue d.action) :=
  (((s.mapCsq_keeps _).trans (CueDue.action_keeps _ d)).trans (State.clickBoundary_keeps _)).trans
    (State.drainExpressions_keeps _)

theorem State.takePedal_keeps (e : PedalEvent) (rest : List PedalEvent) : s.Keeps (s.takePedal e rest) := by
  refine .delivered ?_
  cases e
  case press f =>
    exact ((s.mapPmn_keeps _).trans (State.pressEvent_keeps _ f)).trans (State.drainExpressions_keeps _)
  case release f =>
    exact ((s.mapPmn_keeps _).trans (State.releaseEvent_keeps _ f)).trans (State.drainExpressions_keeps _)
  case expression b v =>
    exact ((s.mapPmn_keeps _).trans (State.expressionChange_keeps _ b v)).trans
      (State.drainExpressions_keeps _)

/-! ### Table writes (R58, R60, R61, R64, R90) -/

theorem State.withdraw_keeps (i : SlotNo) : s.Keeps (s.withdraw i) := by
  have hempty := s.emptySlot_keeps i
  have hreport : s.Keeps (if (s.stg.slots.get i).unreported = true then
      (s.emptySlot i).armReport i (s.stg.slots.get i) .invalidated else s.emptySlot i) :=
    .ite (fun _ => hempty.trans (State.armReport_keeps _ _ _ _)) fun _ => hempty
  exact .ite (fun _ => hreport.trans (State.refusePending_keeps _ _)) fun _ => hreport

/-- What holds of one turn holds of a list of turns. -/
theorem forEach_keeps {α : Type} (xs : List α) (f : α → State → State) (hf : ∀ x s, State.Keeps s (f x s)) :
    s.Keeps (forEach xs f s) := by
  induction xs generalizing s with
  | nil => exact .refl s
  | cons x xs ih => exact (hf x s).trans (ih _)

theorem State.invalidate_keeps (k : TableKind) (idx : Nat) : s.Keeps (s.invalidate k idx) :=
  forEach_keeps s _ _ fun i s => .ite (fun _ => s.withdraw_keeps i) fun _ => .refl s

theorem State.load_keeps (k : TableKind) (idx off : Nat) (ws : List Word24) :
    s.Keeps (s.load k idx off ws).1 := by
  unfold State.load
  (repeat' split) <;> dsimp only
  case isFalse.isFalse =>
    exact (s.invalidate_keeps k idx).trans
      (State.mapTbm_keeps _ _ (Tbm.loadWords_wf k idx off ws) (by simp [Tbm.loadWords]))
  all_goals exact .refl s

@[simp] theorem Tbm.erase_gateLimit (t : Tbm) (k : TableKind) (i : Nat) :
    (t.erase k i).gateLimit = t.gateLimit := by
  cases k <;> simp [Tbm.erase]

theorem State.storeImage_keeps (r : SceneRecord) : s.Keeps (s.storeImage r) := by
  unfold State.storeImage
  split
  · exact .refl s
  · exact s.setSlot_keeps _ _ (fun _ => id) id id

theorem State.store_keeps (n : Nat) (c : Copy) : s.Keeps (s.store n c).1 := by
  have hstore (u : State) : u.Keeps (u.mapTbm fun tb => tb.storeScene n c.record) :=
    u.mapTbm_keeps _ (Tbm.storeScene_wf n c.record) (by simp [Tbm.storeScene])
  unfold State.store
  (repeat' split) <;> dsimp only
  · exact ((hstore s).trans (State.storeImage_keeps _ _)).trans (State.mapCopy_keeps _ _ _)
  · exact .refl s
  · exact (s.invalidate_keeps .scene n).trans (hstore _)

/-! ### The channel (chapter 2) -/

theorem State.mapCch_keeps (f : Cch → Cch) (h : s.cch.fill ≤ 128 → (f s.cch).fill ≤ 128) :
    s.Keeps (s.mapCch f) where
  fill := by simpa using h

@[simp] theorem Cch.followFill_fill (c : Cch) : c.followFill.fill = c.fill := rfl

/-- The words in the FIFO but those of the open message. -/
theorem Cch.fill_of_tail_none {c : Cch} (h : c.tail = none) : c.fill = (c.fifo.map Message.words).sum := by
  simp [Cch.fill, h]

theorem Cch.fill_of_tail_some {c : Cch} {m : Message} (h : c.tail = some m) :
    c.fill = (c.fifo.map Message.words).sum + (1 + m.body.length) := by
  simp [Cch.fill, h, Message.words]

theorem Cch.fifo_le_fill (c : Cch) : (c.fifo.map Message.words).sum ≤ c.fill := Nat.le_add_right _ _

theorem Cch.discardOpen_fill (c : Cch) : c.discardOpen.fill ≤ c.fill :=
  (Cch.fill_of_tail_none rfl).trans_le c.fifo_le_fill

/-- The open message moves within the FIFO, or is reported (R24, R31). -/
theorem Cch.completeOpen_fill (c : Cch) : c.completeOpen.fill = c.fill := by
  unfold Cch.completeOpen
  dsimp only
  split
  · exact Cch.enqueue_fill _ _
  · split
    · next m hm =>
      rw [Cch.fill_of_tail_none rfl, Cch.fill_of_tail_some (c := c) hm]
      simp [Message.words]
    · rfl

theorem Cch.takeHead_fill {len code a0 : Nat} {tag : Byte} {c : Cch} (h : c.fill ≤ 128) :
    (c.takeHead len code tag a0).fill ≤ 128 := by
  have hopened (d : Cch) (hd : d.fill ≤ 128) : (if len = 0 then d.completeOpen else d).fill ≤ 128 := by
    split
    · exact d.completeOpen_fill.trans_le hd
    · exact hd
  refine hopened _ ?_
  dsimp only
  split
  · exact h
  next hroom =>
    have hfifo := c.fifo_le_fill
    simp only [Config.fifoCapacity] at hroom
    rw [Cch.followFill_fill, Cch.fill_of_tail_some rfl]
    simp only [List.length_nil]
    omega

theorem Cch.writeBody_fill {data : Word24} {c : Cch} (h : c.fill ≤ 128) : (c.writeBody data).fill ≤ 128 := by
  unfold Cch.writeBody
  (repeat' split)
  · exact h
  · exact h
  next hroom _ m hm =>
    simp only [Config.fifoCapacity] at hroom
    rw [Cch.fill_of_tail_some hm] at hroom
    rw [Cch.followFill_fill, Cch.fill_of_tail_some rfl]
    simp only [List.length_append, List.length_singleton]
    omega
  · exact h

theorem Cch.discardFaulty_fill (c : Cch) (code : Code) (seq : Nat) (t : Trigger) :
    (c.countFragment.faultOpen code seq t).discardOpen.fill ≤ c.fill :=
  (Cch.discardOpen_fill _).trans (Cch.enqueue_fill _ _).le

theorem Cch.takeBody_fill {seq : Nat} {data : Word24} {c : Cch} (h : c.fill ≤ 128) :
    (c.takeBody seq data).fill ≤ 128 := by
  have hwritten := Cch.writeBody_fill (data := data) h
  unfold Cch.takeBody
  dsimp only
  (repeat' split)
  · exact (Cch.completeOpen_fill _).trans_le hwritten
  · exact hwritten
  · exact (c.discardFaulty_fill _ _ _).trans h

theorem Cch.arrival_fill (w : ControlWord) {c : Cch} (h : c.fill ≤ 128) : (c.arrival w).fill ≤ 128 := by
  unfold Cch.arrival
  split <;> cases w <;> dsimp only
  case isTrue.head => exact Cch.takeHead_fill ((c.discardFaulty_fill _ _ _).trans h)
  case isTrue.body => exact Cch.takeBody_fill h
  case isTrue.abort => exact c.discardOpen_fill.trans h
  case isFalse.head => exact Cch.takeHead_fill h
  case isFalse.body => exact (Cch.enqueue_fill _ _).trans_le h
  all_goals exact h

theorem Cch.timeOut_fill (c : Cch) : c.timeOut.fill ≤ c.fill :=
  (Cch.discardOpen_fill _).trans (Cch.enqueue_fill _ _).le

theorem State.takeControl_keeps (w : Word32) : s.Keeps (s.takeControl w) :=
  s.mapCch_keeps _ fun h => Cch.arrival_fill _ h

theorem State.serveTimeout_keeps : s.Keeps s.serveTimeout :=
  .ite (fun _ => s.mapCch_keeps _ fun h => s.cch.timeOut_fill.trans h) fun _ => .refl s

/-! ### Answers to messages -/

theorem clearSticky_keeps : s.Keeps s.clearSticky :=
  (s.mapSce_keeps _ rfl rfl).trans (State.mapCch_keeps _ _ id)

@[simp] theorem replicate_get {α : Type} {n : Nat} (x : α) (i : Fin n) : (Vector.replicate n x).get i = x := by
  simp [Vector.get]

theorem Stg.reset_legal (b : Bool) : Stg.reset.Legal b := by
  refine ⟨fun i j n => ?_, fun i j => ?_, fun i j => ?_, fun i => ?_⟩ <;> simp [Stg.reset, StgSlot.vacant]

theorem Swu.reset_legal : Swu.reset.StackLegal ∧ Swu.reset.ElapsedLegal :=
  ⟨⟨by simp [Swu.reset], by simp [Swu.reset]⟩, by simp [Swu.ElapsedLegal, Swu.reset]⟩

theorem Tck.reset_legal : Tck.reset.Legal := by
  constructor <;> simp [Tck.reset]

theorem Line.Legal.all_free {d : Dlu} (h : d.lines = Vector.replicate 4 Line.free) : d.Legal := fun l => by
  rw [h, replicate_get]
  exact Line.free_legal

theorem Sce.Legal.restart {e : Sce} (h : e.Legal) (all : Bool) : (e.restart all).Legal := ⟨le_refl _, h.2⟩

theorem Dlu.restart_legal (all : Bool) (d : Dlu) : (d.restart all).Legal := by
  unfold Dlu.restart
  split <;> exact Line.Legal.all_free rfl

theorem Tck.Legal.restart {t : Tck} (h : t.Legal) (all : Bool) : (t.restart all).Legal := by
  unfold Tck.restart
  split
  · exact { Tck.reset_legal with count := h.count }
  · exact ⟨h.period, h.phase, h.beat, h.meter, by simp, h.count, h.levels, le_refl _⟩

theorem State.restartEngine_keeps : s.Keeps s.restartEngine where
  stack _ := Swu.reset_legal.1
  slots _ := Stg.reset_legal _
  clock h := h.restart false
  gains h := h.restart false
  elapsed _ := Swu.reset_legal.2
  lines _ := Dlu.restart_legal _ _

theorem State.restartAll_keeps : s.Keeps s.restartAll where
  mem _ := rfl
  limit _ := Nat.zero_le _
  stack _ := Swu.reset_legal.1
  slots _ := Stg.reset_legal _
  clock h := h.restart true
  gains h := h.restart true
  elapsed _ := Swu.reset_legal.2
  lines _ := Dlu.restart_legal _ _

theorem State.emptyReplies_keeps : s.Keeps (s.mapCch Cch.emptyReplies) := s.mapCch_keeps _ id

theorem State.disarm_keeps (i : SlotNo) : s.Keeps (s.disarm i).1 := by
  have hempty := (s.emptySlot_keeps i).trans (State.mapStg_keeps _
    (fun g => { g with loaderWaits := g.loaderWaits || (s.stg.slots.get i).state == .preparing }) rfl)
  have hreport := State.Keeps.ite (p := (s.stg.slots.get i).unreported = true)
    (fun _ => hempty.trans (State.armReport_keeps _ i (s.stg.slots.get i) .invalidated)) fun _ => hempty
  unfold State.disarm
  dsimp only
  split
  · exact .refl s
  · split
    · exact .refl s
    · exact .ite (fun _ => hreport.trans (State.refusePending_keeps _ _)) fun _ => hreport

variable (m : Message)

theorem statusEffect_keeps : s.Keeps (statusEffect m s).1 := by
  unfold statusEffect
  (repeat' split)
  · exact clearSticky_keeps s
  all_goals exact .refl s

theorem statusZeroEffect_keeps : s.Keeps (statusZeroEffect m s).1 := by
  unfold statusZeroEffect
  split <;> dsimp only
  · exact (clearSticky_keeps s).trans (State.mapCch_keeps _ _ id)
  · exact .refl s

theorem metersEffect_keeps : s.Keeps (metersEffect m s).1 := by
  unfold metersEffect
  split
  · exact s.mapSce_keeps _ rfl rfl
  · exact .refl s

theorem restartEngineEffect_keeps : s.Keeps (restartEngineEffect m s).1 := by
  unfold restartEngineEffect
  (repeat' split)
  · exact s.emptyReplies_keeps.trans (State.restartEngine_keeps _)
  all_goals exact .refl s

theorem restartAllEffect_keeps : s.Keeps (restartAllEffect m s).1 := by
  unfold restartAllEffect
  split <;> dsimp only
  · exact (s.emptyReplies_keeps.trans (State.restartAll_keeps _)).trans (State.mapCch_keeps _ _ id)
  · exact .refl s

theorem loadEffect_keeps : s.Keeps (loadEffect m s).1 := by
  unfold loadEffect
  (repeat' split)
  case h_2 => exact s.load_keeps _ _ _ _
  all_goals exact .refl s

theorem eraseEffect_keeps : s.Keeps (eraseEffect m s).1 := by
  unfold eraseEffect
  (repeat' split) <;> dsimp only
  case isFalse.isFalse =>
    exact (s.invalidate_keeps _ _).trans (State.mapTbm_keeps _ _ (Tbm.erase_wf _ _) (Tbm.erase_gateLimit _ _ _))
  all_goals exact .refl s

theorem commitEffect_keeps : s.Keeps (commitEffect m s).1 := by
  unfold commitEffect
  (repeat' split) <;> dsimp only
  · exact .refl s
  · exact .refl s
  · split <;> dsimp only
    · exact s.mapTbm_keeps _ (fun h => by rwa [Tbm.setValid_mem]) (Tbm.setValid_gateLimit _ _ _ _)
    · exact .refl s
  · exact .refl s

theorem gateLimitEffect_keeps : s.Keeps (gateLimitEffect m s).1 := by
  unfold gateLimitEffect
  (repeat' split)
  · exact .refl s
  next hle => exact { limit := fun _ => not_lt.mp hle }
  · exact .refl s

theorem storeEffect_keeps : s.Keeps (storeEffect m s).1 := by
  unfold storeEffect
  (repeat' split)
  · exact .refl s
  · exact .refl s
  · exact s.store_keeps _ _
  · exact .refl s

theorem armEffect_keeps : s.Keeps (armEffect m s).1 := by
  unfold armEffect
  split
  · exact s.armRequest_keeps _
  · exact .refl s

theorem disarmEffect_keeps : s.Keeps (disarmEffect m s).1 := by
  unfold disarmEffect
  (repeat' split)
  · exact .refl s
  · exact s.disarm_keeps _
  · exact .refl s
  · exact s.disarm_keeps _
  · exact .refl s

theorem switchSceneEffect_keeps : s.Keeps (switchSceneEffect m s).1 := by
  unfold switchSceneEffect
  (repeat' split)
  · exact s.baseSwitch_keeps _
  · exact .refl s
  · exact s.baseSwitch_keeps _
  · exact .refl s
  · exact .refl s

theorem switchGateEffect_keeps : s.Keeps (switchGateEffect m s).1 := by
  unfold switchGateEffect
  (repeat' split)
  · exact .refl s
  · exact s.dispatch_keeps _ _
  · exact .refl s

theorem returnEffect_keeps : s.Keeps (returnEffect m s).1 := by
  unfold returnEffect
  split
  · exact s.pop_keeps _
  · exact .refl s

theorem setParamEffect_keeps : s.Keeps (setParamEffect m s).1 := by
  unfold setParamEffect
  (repeat' split)
  case isFalse => exact s.mapCopy_keeps _ _
  all_goals exact .refl s

theorem toggleStageEffect_keeps : s.Keeps (toggleStageEffect m s).1 := by
  unfold toggleStageEffect
  split
  · exact s.toggleStage_keeps _
  · exact .refl s

theorem tailCfgEffect_keeps : s.Keeps (tailCfgEffect m s).1 := by
  unfold tailCfgEffect
  split <;> dsimp only
  · exact s.mapDlu_keeps _ id
  · exact .refl s

theorem tempoEffect_keeps : s.Keeps (tempoEffect m s).1 := by
  unfold tempoEffect
  split <;> dsimp only
  · exact s.takePeriod_keeps (periodOf_range _)
  · exact .refl s

theorem Tck.Legal.setMeter {t : Tck} (h : t.Legal) {n : Nat} (hn : 1 ≤ n ∧ n ≤ 16) : (t.setMeter n).Legal := by
  have hbeat := h.beat
  exact ⟨h.period, h.phase, by simp only [Tck.setMeter]; omega, hn.2, h.history, h.count, h.levels, h.burst⟩

theorem meterEffect_keeps : s.Keeps (meterEffect m s).1 := by
  unfold meterEffect
  (repeat' split)
  next hn => exact s.mapTck_keeps _ fun h => h.setMeter hn
  all_goals exact .refl s

theorem tapEffect_keeps : s.Keeps (tapEffect m s).1 := by
  unfold tapEffect
  split
  · exact s.tapEvent_keeps _ _
  · exact .refl s

theorem clickEffect_keeps : s.Keeps (clickEffect m s).1 := by
  unfold clickEffect
  (repeat' split) <;> dsimp only
  · exact .refl s
  · exact s.mapTck_keeps _ fun h =>
      ⟨h.period, h.phase, h.beat, h.meter, h.history, h.count, h.levels, h.burst⟩
  · exact .refl s
  · exact s.mapTck_keeps _ fun h =>
      ⟨h.period, h.phase, h.beat, h.meter, h.history, h.count, ⟨min_le_left _ _, min_le_left _ _⟩, h.burst⟩
  · exact .refl s

theorem cueStartEffect_keeps : s.Keeps (cueStartEffect m s).1 := by
  have hmessage (a b : Nat) : s.Keeps (s.cueStartMessage a b m.tag).1 := by
    unfold State.cueStartMessage
    (repeat' split)
    · exact .refl s
    · exact s.cueStart_keeps _ _ _
    · exact .refl s
  unfold cueStartEffect
  split
  · exact hmessage _ _
  · exact hmessage _ _
  · exact .refl s

theorem cueOpEffect_keeps (op : CueOp) : s.Keeps (cueOpEffect op m s).1 := by
  unfold cueOpEffect
  split
  · exact s.cueOp_keeps op
  · exact .refl s

theorem advanceEffect_keeps : s.Keeps (advanceEffect m s).1 := by
  unfold advanceEffect
  (repeat' split)
  · exact s.cueOp_keeps .advance
  all_goals exact .refl s

/-- What a command does in its effect keeps the invariants, row by row. -/
theorem MessageRow.effect_keeps (r : MessageRow) : s.Keeps (r.effect m s).1 := by
  cases r <;> simp only [MessageRow.effect]
  case status => exact statusEffect_keeps s m
  case statusZero => exact statusZeroEffect_keeps s m
  case meters => exact metersEffect_keeps s m
  case restartEngine => exact restartEngineEffect_keeps s m
  case restartAll => exact restartAllEffect_keeps s m
  case load => exact loadEffect_keeps s m
  case erase => exact eraseEffect_keeps s m
  case commit => exact commitEffect_keeps s m
  case gateLimit => exact gateLimitEffect_keeps s m
  case arm => exact armEffect_keeps s m
  case disarm => exact disarmEffect_keeps s m
  case switchScene => exact switchSceneEffect_keeps s m
  case switchGate => exact switchGateEffect_keeps s m
  case pop => exact returnEffect_keeps s m
  case setParam => exact setParamEffect_keeps s m
  case store => exact storeEffect_keeps s m
  case toggleStage => exact toggleStageEffect_keeps s m
  case tempo => exact tempoEffect_keeps s m
  case meter => exact meterEffect_keeps s m
  case tap => exact tapEffect_keeps s m
  case click => exact clickEffect_keeps s m
  case cueStart => exact cueStartEffect_keeps s m
  case advance => exact advanceEffect_keeps s m
  case skip => exact cueOpEffect_keeps s m .skip
  case vamp => exact cueOpEffect_keeps s m .vamp
  case hold => exact cueOpEffect_keeps s m .hold
  case resume => exact cueOpEffect_keeps s m .resume
  case stop => exact cueOpEffect_keeps s m .stop
  case tailCfg => exact tailCfgEffect_keeps s m
  case damaged | unknown | ping | slotmap | read | tunerMode | tunerRef | tunerSource | pedalCfg =>
    constructor <;> simp

theorem State.removeHead_keeps {rest : List Message} (h : s.cch.fifo = m :: rest) :
    s.Keeps (s.removeHead rest) := by
  refine (s.mapCch_keeps _ fun hl => ?_).trans (State.mapFrame_keeps _ _)
  rw [Cch.followFill_fill]
  refine le_trans ?_ hl
  simp [Cch.fill, h]

theorem State.reply_keeps (r : State × Reply) : r.1.Keeps (State.reply m r) :=
  .delivered (State.mapCch_keeps _ _ fun h => (Cch.enqueue_fill _ _).trans_le h)

theorem State.takeMessage_keeps (r : MessageRow) {rest : List Message} (h : s.cch.fifo = m :: rest) :
    s.Keeps (s.takeMessage r.effect m rest) :=
  ((s.removeHead_keeps m h).trans (MessageRow.effect_keeps _ m r)).trans (State.reply_keeps m _)

theorem State.takeRow_keeps (r : MessageRow) : s.Keeps (s.takeRow r r.effect) := by
  unfold State.takeRow
  split
  next m rest h => exact .ite (fun _ => s.takeMessage_keeps m r h) fun _ => .refl s
  · exact .refl s

theorem State.executorLook_keeps : s.Keeps s.executorLook := by
  unfold State.executorLook
  split
  next m rest h => exact .ite (fun _ => s.takeMessage_keeps m m.row h) fun _ => .refl s
  · exact .refl s

/-! ### The link and the frame (chapter 1) -/

theorem State.lock_keeps : s.Keeps s.lock := by
  have hsli := (s.mapCch_keeps (Cch.enqueue (linkReport s.sli.everLocked))
    fun h => (Cch.enqueue_fill _ _).trans_le h).trans (State.mapSli_keeps _ fun l =>
      { l with lock := .locked, bad := 0, counter := 0, everLocked := true, received := none
               outbound := OutWords.idle })
  refine (hsli.trans ?_).trans (State.syncLines_keeps _)
  exact { gains := fun _ => by
            refine ⟨?_, Nat.zero_le _⟩
            simp only [State.relockEngine, State.mapSce_sce]
            split <;> decide }

theorem State.tunerLoss_keeps : s.Keeps s.tunerLoss := .ite (fun _ => .refl _) fun _ => s.mapTun_keeps _

theorem Tck.Legal.burstEnd {t : Tck} (h : t.Legal) :
    Tck.Legal { t with burst := none, burstPos := Config.burstLength } :=
  ⟨h.period, h.phase, h.beat, h.meter, h.history, h.count, h.levels, le_refl _⟩

theorem State.linkLoss_keeps : s.Keeps s.linkLoss := by
  have hch := (s.mapSli_keeps Sli.linkLoss).trans (State.mapCch_keeps _ Cch.linkLoss fun _ => by
    rw [Cch.fill_of_tail_none rfl]
    exact Nat.zero_le _)
  have hlines := (hch.trans (State.completeCrossfade_keeps _ true)).trans (State.mapDlu_keeps _
    (fun d => { d with lines := vmap Line.linkLoss d.lines })
    fun h => h.vmap (fun _ => Line.Legal.linkLoss) rfl)
  have hburst := (hlines.trans (State.mapPmn_keeps _ Pmn.linkLoss)).trans (State.mapTck_keeps _
    (fun t => { t with burst := none, burstPos := Config.burstLength }) Tck.Legal.burstEnd)
  exact hburst.trans (State.tunerLoss_keeps _)

theorem Swu.ElapsedLegal.age {u : Swu} (h : u.ElapsedLegal) (p : Option Pending) :
    Swu.ElapsedLegal { u with pending := p
                              crossfade := u.crossfade.map fun x => { x with reversalFresh := false } } := by
  intro x hx
  obtain ⟨y, hy, rfl⟩ := Option.map_eq_some_iff.mp hx
  exact h y hy

theorem State.age_keeps : s.Keeps s.age := by
  have hengine := s.mapSce_keeps
    (fun e => { e with live := e.live.map Copy.age, fading := e.fading.map Copy.age }) rfl rfl
  have hslots (u : State) :
      u.Keeps (u.mapStg fun g => { g with slots := vmap (fun t => { t with fresh := false }) g.slots }) :=
    { slots := fun h => h.vmap (f := fun t => { t with fresh := false }) (fun _ => ⟨rfl, rfl⟩) rfl }
  have hswitch (u : State) := u.mapSwu_keeps
    (fun u => { u with pending := u.pending.map fun p => { p with fresh := false }
                       crossfade := u.crossfade.map fun x => { x with reversalFresh := false } })
    id (by simp) fun h => h.age _
  unfold State.age
  exact (((hengine.trans (hslots _)).trans (hswitch _)).trans (State.mapPmn_keeps _ _)).trans
    (State.mapCsq_keeps _ _)

theorem moveGain_le {g : Nat} (h : g ≤ 32768) (up : Bool) : moveGain g up ≤ 32768 := by
  cases up
  · exact (Nat.sub_le _ _).trans h
  · exact min_le_left _ _

theorem State.audio_keeps (f : FrameIn) : s.Keeps (s.audio f) where
  gains h := by
    rw [(s.audio_eq f).1]
    exact ⟨moveGain_le h.1 _, min_le_left _ _⟩
  lines h l := by
    rw [(s.audio_eq f).2.2 l]
    split
    · exact h l
    · exact ⟨by simp, (h l).2⟩

theorem Tck.Legal.frame {t : Tck} (h : t.Legal) : t.frame.Legal := by
  refine ⟨h.period, h.phase, h.beat, h.meter, h.history, ?_, h.levels, ?_⟩
  · have hcount := h.count
    simp only [Tck.frame, Config.tapCountMax] at hcount ⊢
    split <;> omega
  · have hburst := h.burst
    simp only [Tck.frame, Config.burstLength] at hburst ⊢
    split <;> omega

theorem State.clockFrame_keeps : s.Keeps s.clockFrame := by
  have hframe := (s.mapSli_keeps fun l => { l with outbound := { l.outbound with click := s.tck.sample } }).trans
    (State.mapTck_keeps _ Tck.frame Tck.Legal.frame)
  exact .ite (fun _ => hframe.trans (State.mapFrame_keeps _ _)) fun hlt => hframe.trans
    (State.mapTck_keeps _ (fun t => { t with phase := t.phase + 1 }) fun h =>
      ⟨h.period, not_le.mp hlt, h.beat, h.meter, h.history, h.count, h.levels, h.burst⟩)

theorem State.measureSource_keeps (a b : Int) : s.Keeps (s.measureSource a b) where

theorem Swu.elapsedLegal_frame (u : Swu) :
    Swu.ElapsedLegal { u with crossfade := u.crossfade.map Crossfade.frame } := by
  intro x hx
  obtain ⟨y, -, rfl⟩ := Option.map_eq_some_iff.mp hx
  exact min_le_left _ _

theorem State.deliverFrame_keeps (o : FrameOrder) (r : Received) : s.Keeps (s.deliverFrame o r) := by
  have haged := s.age_keeps.trans (State.mapSwu_keeps _
    (fun u => { u with crossfade := u.crossfade.map Crossfade.frame }) id (by simp)
    fun _ => Swu.elapsedLegal_frame _)
  have hsound := (haged.trans (State.audio_keeps _
    { a := r.sample s.sli.map.guitarA, b := r.sample s.sli.map.guitarB
      ret := r.sample s.sli.map.loopReturn, tbm := s.age.tbm })).trans (State.clockFrame_keeps _)
  have hopen (u : State) (w : Word32) (a b : Int) : u.Keeps (u.openEnd o w a b) := u.mapFrame_keeps _
  have hmeasured (u : State) (a b : Int) :
      u.Keeps (if o.measureLast then u else u.measureSource a b) :=
    .ite (fun _ => .refl _) fun _ => u.measureSource_keeps _ _
  have hcontrol (u : State) (w : Word32) : u.Keeps (if o.controlLast then u else u.takeControl w) :=
    .ite (fun _ => .refl _) fun _ => u.takeControl_keeps _
  unfold State.deliverFrame
  dsimp only
  exact .delivered (((((((hsound.trans (hopen _ _ _ _)).trans (hmeasured _ _ _)).trans
    (hcontrol _ _)).trans (State.mapSli_keeps _ _)).trans (State.mapPmn_keeps _ _)).trans
      (State.drainExpressions_keeps _)))

theorem State.deliverDue_keeps (o : FrameOrder) : s.Keeps (s.deliverDue o) := by
  unfold State.deliverDue
  split
  · exact s.deliverFrame_keeps o _
  · exact .refl s
  · exact .refl s

theorem State.serveLink_keeps : s.Keeps s.serveLink :=
  .ite (fun _ => s.lock_keeps) fun _ => .ite (fun _ => s.linkLoss_keeps) fun _ => s.deliverDue_keeps _

theorem State.serveFades_keeps : s.Keeps s.serveFades :=
  s.mapDlu_keeps _ fun h => h.vmap (f := fun l => if l.fadeEndDue then l.fadeEnd else l) (fun l hl => by
    split
    · exact hl.fadeEnd
    · exact hl) rfl

theorem State.serveGates_keeps : s.Keeps s.serveGates :=
  (s.mapSce_keeps _ rfl rfl).trans (State.mapSce_keeps _ _ rfl rfl)

theorem State.serveBurst_keeps : s.Keeps s.serveBurst :=
  s.mapTck_keeps _ fun h => by
    split
    · exact ⟨h.period, h.phase, h.beat, h.meter, h.history, h.count, h.levels, h.burst⟩
    · exact h

theorem State.serveSilence_keeps : s.Keeps s.serveSilence := s.mapTun_keeps _

theorem State.serveCue_keeps : s.Keeps s.serveCue := by
  unfold State.serveCue
  split
  · exact .delivered (s.finishCueDue_keeps _)
  · exact .refl s

theorem State.settle_keeps : s.Keeps s.settle :=
  .ite (fun _ => .refl s) fun _ =>
    (((((s.serveLink_keeps.trans (State.serveTimeout_keeps _)).trans (State.serveFades_keeps _)).trans
      (State.serveGates_keeps _)).trans (State.serveBurst_keeps _)).trans
        (State.serveSilence_keeps _)).trans (State.serveCue_keeps _)

theorem State.Keeps.settled {s t : State} (h : s.Keeps t) : s.Keeps t.settle := h.trans t.settle_keeps

/-! ### The block boundary (5.1) -/

theorem State.paceTuner_keeps : s.Keeps s.paceTuner := .ite (fun _ => .refl s) fun _ => s.mapTun_keeps _

theorem StgSlot.prepare_kept (t : StgSlot) : t.prepare.scene = t.scene ∧ t.prepare.state = t.state := by
  unfold StgSlot.prepare
  split <;> exact ⟨rfl, rfl⟩

theorem State.blockBoundary_keeps : s.Keeps s.blockBoundary := by
  have hlines := ((s.mapSce_keeps (fun e =>
      { e with live := e.live.map Copy.boundary, fading := e.fading.map Copy.boundary }) rfl rfl).trans
    (State.syncLines_keeps _)).trans (State.mapDlu_keeps _
      (fun d => { d with lines := vmap (Line.judge d.threshold d.quietTime d.limit) d.lines })
      fun h => h.vmap (fun _ hl => hl.judge _ _ _) rfl)
  have hslots (u : State) :
      u.Keeps (u.mapStg fun g => { g with slots := vmap StgSlot.prepare g.slots, loaderWaits := false }) :=
    { slots := fun h => h.vmap (f := StgSlot.prepare) StgSlot.prepare_kept rfl }
  have hpedals := (hlines.trans (hslots _)).trans
    (State.mapPmn_keeps _ fun p => { p with switches := vmap Footswitch.countHold p.switches })
  exact (hpedals.trans (State.paceTuner_keeps _)).trans
    (State.mapFrame_keeps _ fun f => { f with blockDue := false, atBlock := true, tested := false })

theorem State.startTest_keeps : s.Keeps s.startTest := by
  have hdone := State.Keeps.ite (p := s.completionDue = true) (fun _ => s.completeCrossfade_keeps false)
    fun _ => .refl s
  exact .ite (fun hready => hdone.trans (State.startCrossfade_keeps _ hready))
    fun _ => hdone.trans (State.mapFrame_keeps _ _)

theorem State.loaderTake_keeps (i : SlotNo) : s.Keeps (s.loaderTake i) := by
  have hempty := (s.emptySlot_keeps i).trans (State.armReport_keeps _ i (s.stg.slots.get i) .notPresent)
  exact .ite (fun _ => s.startPreparation_keeps i _) fun _ =>
    .ite (fun _ => hempty.trans (State.refusePending_keeps _ _)) fun _ => hempty

theorem State.loaderTakes_keeps (n : Nat) : s.Keeps (State.loaderTakes n s) := by
  induction n generalizing s with
  | zero => exact .refl s
  | succ n ih =>
    unfold State.loaderTakes
    split
    · exact (s.loaderTake_keeps _).delivered.trans (ih _)
    · exact .refl s

theorem State.closePreparation_keeps : s.Keeps s.closePreparation := by
  unfold State.closePreparation
  split
  · exact .delivered (s.completePreparation_keeps _)
  · exact .refl s

theorem State.closeCrossfade_keeps : s.Keeps s.closeCrossfade :=
  .ite (fun _ => .delivered s.takeReversal_keeps) fun _ =>
    .ite (fun _ => .delivered (s.completeCrossfade_keeps false)) fun _ => .refl s

theorem State.closeStart_keeps : s.Keeps s.closeStart :=
  .ite (fun h => .delivered (s.startCrossfade_keeps (Bool.and_eq_true_iff.mp h).2)) fun _ => .refl s

theorem State.closePacing_keeps : s.Keeps s.closePacing :=
  .ite (fun _ => .delivered ((s.mapTun_keeps _).trans (.ite (fun _ => .refl _)
    fun _ => State.tuneReport_keeps _))) fun _ => .refl s

theorem State.closeTails_keeps : s.Keeps s.closeTails :=
  forEach_keeps s _ _ fun l s => .ite (fun _ => s.expireTail_keeps l) fun _ => .refl s

theorem State.closeList_keeps : s.Keeps s.closeList :=
  .ite (fun _ => .settled (.delivered s.beginList_keeps)) fun _ => .refl s

theorem State.takeHolds_keeps (n : Nat) : s.Keeps (State.takeHolds n s) := by
  induction n generalizing s with
  | zero => exact .refl s
  | succ n ih =>
    unfold State.takeHolds
    split
    · exact (s.holdEvent_keeps _).delivered.settled.trans (ih _)
    · exact .refl s

/-! ### The close of a frame -/

theorem State.takePedals_keeps (n : Nat) : s.Keeps (State.takePedals n s) := by
  induction n generalizing s with
  | zero => exact .refl s
  | succ n ih =>
    unfold State.takePedals
    split
    · exact (s.takePedal_keeps _ _).settled.trans (ih _)
    · exact .refl s

theorem State.beat_keeps : s.Keeps s.beat :=
  .delivered ((s.mapFrame_keeps _).trans (State.risePhase_keeps _))

theorem State.closeControl_keeps : s.Keeps s.closeControl := by
  unfold State.closeControl
  split
  · exact ((s.mapFrame_keeps _).trans (State.takeControl_keeps _ _)).settled
  · exact .refl s

theorem State.closeMeasure_keeps : s.Keeps s.closeMeasure := by
  unfold State.closeMeasure
  split
  · exact ((s.mapFrame_keeps _).trans (State.measureSource_keeps _ _ _)).settled
  · exact .refl s

theorem State.closeBoundary_keeps : s.Keeps s.closeBoundary := by
  have hblock := State.Keeps.ite (p := s.boundaryDue = true) (fun _ => s.blockBoundary_keeps.settled)
    fun _ => .refl s
  refine .ite (fun _ => ?_) fun _ => hblock
  exact (((((((hblock.trans (State.closeTails_keeps _)).trans (State.takeHolds_keeps _ 12)).trans
    (State.closePreparation_keeps _)).trans (State.closeCrossfade_keeps _)).trans
      (State.closeStart_keeps _)).trans (State.loaderTakes_keeps _ 4)).trans
        (State.closeList_keeps _)).trans (State.closePacing_keeps _)

theorem State.upToEnd_keeps : s.Keeps s.upToEnd :=
  ((((((s.takePedals_keeps _).trans (State.executorLook_keeps _).settled).trans
    (State.closeControl_keeps _)).trans (State.executorLook_keeps _).settled).trans
      (.ite (fun _ => (State.beat_keeps _).settled) fun _ => .refl _)).trans
        (State.closeBoundary_keeps _)).trans (State.closeMeasure_keeps _)

@[simp] theorem Cch.startRecord_fill (c : Cch) : c.startRecord.fill = c.fill := by
  unfold Cch.startRecord
  split <;> rfl

@[simp] theorem Cch.serialize_fill (c : Cch) : c.serialize.fill = c.fill := by
  unfold Cch.serialize
  split <;> simp

theorem State.endFrame_keeps : s.Keeps s.endFrame := by
  unfold State.endFrame
  exact (s.mapCch_keeps Cch.serialize fun h => (Cch.serialize_fill _).trans_le h).trans (State.mapSli_keeps _ _)

theorem State.closeFrame_keeps : s.Keeps s.closeFrame :=
  .ite (fun _ => ((s.upToEnd_keeps.trans (State.endFrame_keeps _)).trans (State.mapSli_keeps _ _)).trans
    (State.mapFrame_keeps _ _)) fun _ => .refl s

theorem Cch.wordSent_fill (c : Cch) : c.wordSent.fill = c.fill := by
  unfold Cch.wordSent
  (repeat' split) <;> rfl

theorem State.intervalEnds_keeps (iv : SyncInterval) : s.Keeps (s.intervalEnds iv) where
  fill h := by
    refine le_trans (le_of_eq ?_) h
    simp only [State.intervalEnds, State.mapSli_cch, State.sendReply]
    split <;> simp [Cch.wordSent_fill]
  gains h := by simpa [Sce.Legal] using h

/-! ### Every step -/

theorem State.Keeps.of_act {f : State → State} {s t : State} (h : act f s = .next t) (hf : s.Keeps (f s)) :
    s.Keeps t := by
  rcases act_next h with rfl | rfl
  · exact .refl _
  · exact hf

theorem State.pedalStep_keeps (e : PedalEvent) : s.Keeps (s.pedalStep e) := by
  unfold State.pedalStep
  split
  · exact .ite (fun _ => s.takePedal_keeps _ _) fun _ => .refl s
  · exact .refl s

theorem State.cueStep_keeps (d : CueDue) : s.Keeps (s.cueStep d d.action) :=
  .ite (fun _ => .delivered (s.finishCueDue_keeps d)) fun _ => .refl s

theorem State.serveStage_keeps (c : CopyRole) (k : Fin 10) (d : Stage → Bool) (f : Stage → Stage) :
    s.Keeps (s.serveStage c k d f) := .ite (fun _ => s.mapCopy_keeps _ _) fun _ => .refl s

/-- A step behind what `settle` serves, taken where it is due. -/
theorem State.Keeps.settled_ite {s : State} {p : Prop} [Decidable p] {f : State → State}
    (hf : s.settle.Keeps (f s.settle)) : s.Keeps (if p then f s.settle else s.settle) :=
  s.settle_keeps.trans (.ite (fun _ => hf) fun _ => .refl _)

theorem exec_event_keeps {c : Instr} (hrow : messageRowOf c = none) (hreset : c ≠ .powerOnReset) {s t : State}
    (h : exec c s = .next t) : s.Keeps t := by
  cases c <;> dsimp only [exec] at h
  case powerOnReset => exact absurd rfl hreset
  case resetnAssert =>
    cases h
    exact s.mapSli_keeps _
  case syncIntervalEnd iv =>
    exact .of_act h ((s.settle_keeps.trans (State.closeFrame_keeps _)).trans (State.intervalEnds_keeps _ iv))
  case lock => exact .of_act h (.ite (fun _ => s.lock_keeps) fun _ => .refl s)
  case linkLoss => exact .of_act h (.ite (fun _ => s.linkLoss_keeps) fun _ => .refl s)
  case lockedFrame o => exact .of_act h (s.deliverDue_keeps o)
  case blockBoundary => exact .of_act h (.settled_ite (State.blockBoundary_keeps _))
  case assemblyTimeout => exact .of_act h s.serveTimeout_keeps
  case slotmapSwitchover => exact .of_act h (.settled_ite (State.closeFrame_keeps _))
  case loaderTake => exact .of_act h (s.settle_keeps.trans (State.loaderTakes_keeps _ 1))
  case preparationComplete => exact .of_act h (s.settle_keeps.trans (State.closePreparation_keeps _))
  case crossfadeStart =>
    exact .of_act h (.settled_ite (f := fun s => s.startTest.deliver) (State.startTest_keeps _).delivered)
  case reversal =>
    exact .of_act h (.settled_ite (f := fun s => s.takeReversal.deliver) (State.takeReversal_keeps _).delivered)
  case crossfadeComplete =>
    exact .of_act h (.settled_ite (f := fun s => (s.completeCrossfade false).deliver)
      (State.completeCrossfade_keeps _ false).delivered)
  case noiseGateHoldEnd c k => exact .of_act h (s.serveStage_keeps c k _ _)
  case noiseGateRampEnd c k => exact .of_act h (s.serveStage_keeps c k _ _)
  case tapFadeEnd l =>
    exact .of_act h (.ite (fun _ => s.setLine_keeps l _ fun _ => Line.Legal.fadeEnd) fun _ => .refl s)
  case tailExpiry l => exact .of_act h (.settled_ite (State.expireTail_keeps _ l))
  case footswitchPress f => exact .of_act h (s.settle_keeps.trans (State.pedalStep_keeps _ _))
  case holdEvent f =>
    exact .of_act h (.settled_ite (f := fun s => (s.holdEvent f).deliver) (State.holdEvent_keeps _ f).delivered)
  case footswitchRelease f => exact .of_act h (s.settle_keeps.trans (State.pedalStep_keeps _ _))
  case beatBoundary => exact .of_act h (.settled_ite (State.beat_keeps _))
  case clickBurstEnd => exact .of_act h s.serveBurst_keeps
  case cueListBegin =>
    exact .of_act h (.settled_ite (f := fun s => s.beginList.deliver) (State.beginList_keeps _).delivered)
  case countInStart => exact .of_act h (s.cueStep_keeps .countInStart)
  case countInEnd => exact .of_act h (s.cueStep_keeps .countInEnd)
  case cueEnd => exact .of_act h (s.cueStep_keeps .cueEnd)
  case vampReload => exact .of_act h (s.cueStep_keeps .vampReload)
  case heldAdvanceCarriedOut => exact .of_act h (s.cueStep_keeps .heldAdvance)
  case heldSkipCarriedOut => exact .of_act h (s.cueStep_keeps .heldSkip)
  case tunerSilence => exact .of_act h s.serveSilence_keeps
  case tunePacingExpiry => exact .of_act h (s.settle_keeps.trans (State.closePacing_keeps _))
  all_goals cases hrow

/-- The state right after the power-on reset meets every invariant, whatever waits in the queue. -/
theorem State.reset_keeps (p : List Instr) : s.Keeps { State.reset with pending := p } where
  mem _ := rfl
  limit _ := Nat.zero_le _
  stack _ := Swu.reset_legal.1
  fill _ := Nat.zero_le _
  slots _ := Stg.reset_legal _
  clock _ := Tck.reset_legal
  gains _ := ⟨le_refl _, Nat.zero_le _⟩
  elapsed _ := Swu.reset_legal.2
  lines _ := Line.Legal.all_free rfl

theorem exec_keeps (c : Instr) {s t : State} (h : exec c s = .next t) : s.Keeps t := by
  cases hrow : messageRowOf c with
  | some r =>
    rw [exec_of_messageRow hrow] at h
    exact .of_act h (s.settle_keeps.trans (State.takeRow_keeps _ r))
  | none =>
    by_cases hreset : c = .powerOnReset
    · subst hreset
      cases h
      exact s.reset_keeps _
    · exact exec_event_keeps hrow hreset h

theorem step_keeps {s t : State} (h : step s = .next t) : s.Keeps t := by
  unfold step at h
  split at h
  · cases h
    exact .refl _
  next c rest _ =>
    have hqueue : s.Keeps { s with pending := rest } := { }
    exact hqueue.trans (exec_keeps c h)

/-- Settles O55. -/
theorem memoryStaysCanonical : Obligations.MemoryStaysCanonical := fun _ _ hs h => (step_keeps h).mem hs

/-- Settles O56. -/
theorem returnStackStaysLegal : Obligations.ReturnStackStaysLegal := fun _ _ hs h => (step_keeps h).stack hs

/-- Settles O57. -/
theorem fifoStaysWithinItsCapacity : Obligations.FifoStaysWithinItsCapacity := fun _ _ hs h =>
  (step_keeps h).fill hs

/-- Settles O58. -/
theorem slotsStayLegal : Obligations.SlotsStayLegal := fun s t hs h =>
  t.slotsLegal_iff.mpr ((step_keeps h).slots (s.slotsLegal_iff.mp hs))

/-- Settles O59, part by part of the ranges. -/
theorem clockAndGainsStayInRange : Obligations.ClockAndGainsStayInRange := by
  refine ⟨fun _ _ hs h => (step_keeps h).clock hs, fun s t hs h => ?_⟩
  obtain ⟨hgains, helapsed, hlines, hlimit⟩ := s.inRange_iff.mp hs
  have hkeeps := step_keeps h
  exact t.inRange_iff.mpr
    ⟨hkeeps.gains hgains, hkeeps.elapsed helapsed, hkeeps.lines hlines, hkeeps.limit hlimit⟩

end Sys2Proof.Machine


/-! PROOF. Every step answers and keeps the queue; the reset state; the answers of the channel's own
messages. -/

namespace Sys2Proof.Machine

variable {s : State}

/-! ### The queue of the steps that wait -/

@[simp] theorem State.takeMessage_pending (eff : Message → State → State × Reply) (m : Message)
    (rest : List Message) (h : ∀ s, (eff m s).1.pending = s.pending) (s : State) :
    (s.takeMessage eff m rest).pending = s.pending := by
  simp [State.takeMessage, State.reply, h]

@[simp] theorem State.takeRow_pending (r : MessageRow) (s : State) :
    (s.takeRow r r.effect).pending = s.pending := by
  unfold State.takeRow
  (repeat' split) <;> simp

@[simp] theorem State.executorLook_pending (s : State) : s.executorLook.pending = s.pending := by
  unfold State.executorLook
  (repeat' split) <;> simp

@[simp] theorem State.takePedals_pending (n : Nat) (s : State) :
    (State.takePedals n s).pending = s.pending := by
  induction n generalizing s with
  | zero => rfl
  | succ n ih =>
    unfold State.takePedals
    split
    · simp [ih]
    · rfl

@[simp] theorem State.takeHolds_pending (n : Nat) (s : State) :
    (State.takeHolds n s).pending = s.pending := by
  induction n generalizing s with
  | zero => rfl
  | succ n ih =>
    unfold State.takeHolds
    split
    · simp [ih]
    · rfl

@[simp] theorem State.loaderTakes_pending (n : Nat) (s : State) :
    (State.loaderTakes n s).pending = s.pending := by
  induction n generalizing s with
  | zero => rfl
  | succ n ih =>
    unfold State.loaderTakes
    split
    · simp [ih]
    · rfl

@[simp] theorem State.closeBoundary_pending (s : State) : s.closeBoundary.pending = s.pending := by
  unfold State.closeBoundary
  dsimp only
  (repeat' split) <;> simp

@[simp] theorem State.upToEnd_pending (s : State) : s.upToEnd.pending = s.pending := by
  simp [State.upToEnd, State.closeExecutor]

@[simp] theorem State.closeFrame_pending (s : State) : s.closeFrame.pending = s.pending := by
  by_cases h : s.frame.isOpen = true
  · simp [State.closeFrame_of_open h]
  · rw [State.closeFrame_of_closed h]

@[simp] theorem State.pedalStep_pending (e : PedalEvent) (s : State) : (s.pedalStep e).pending = s.pending := by
  unfold State.pedalStep
  (repeat' split) <;> simp

@[simp] theorem State.cueStep_pending (d : CueDue) (s : State) :
    (s.cueStep d d.action).pending = s.pending := by
  unfold State.cueStep
  split <;> simp

/-- A step of the chip that keeps the queue where it acts, and leaves everything where it does not. -/
theorem act_pending {f : State → State} (h : (f s).pending = s.pending) :
    ∃ t, act f s = .next t ∧ t.pending = s.pending := by
  unfold act
  split
  · exact ⟨s, rfl, rfl⟩
  · exact ⟨f s, rfl, h⟩

theorem ite_pending {p : Prop} [Decidable p] {t u v : State} (ht : t.pending = v.pending)
    (hu : u.pending = v.pending) : (if p then t else u).pending = v.pending := by
  split
  · exact ht
  · exact hu

theorem exec_event_pending {c : Instr} (hrow : messageRowOf c = none) (s : State) :
    ∃ t, exec c s = .next t ∧ t.pending = s.pending := by
  cases c <;> dsimp only [exec]
  case resetnAssert => exact ⟨_, rfl, rfl⟩
  case powerOnReset => exact ⟨_, rfl, rfl⟩
  case syncIntervalEnd iv => exact act_pending (by simp)
  case lock => exact act_pending (ite_pending (by simp) rfl)
  case linkLoss => exact act_pending (ite_pending (by simp) rfl)
  case lockedFrame o => exact act_pending (by simp)
  case blockBoundary => exact act_pending (ite_pending (by simp) (by simp))
  case assemblyTimeout => exact act_pending (by simp)
  case slotmapSwitchover => exact act_pending (ite_pending (by simp) (by simp))
  case loaderTake => exact act_pending (by simp)
  case preparationComplete => exact act_pending (by simp)
  case crossfadeStart => exact act_pending (ite_pending (by simp) (by simp))
  case reversal => exact act_pending (ite_pending (by simp) (by simp))
  case crossfadeComplete => exact act_pending (ite_pending (by simp) (by simp))
  case noiseGateHoldEnd c k => exact act_pending (by simp)
  case noiseGateRampEnd c k => exact act_pending (by simp)
  case tapFadeEnd l => exact act_pending (ite_pending (by simp) rfl)
  case tailExpiry l => exact act_pending (ite_pending (by simp) (by simp))
  case footswitchPress f => exact act_pending (by simp)
  case holdEvent f => exact act_pending (ite_pending (by simp) (by simp))
  case footswitchRelease f => exact act_pending (by simp)
  case beatBoundary => exact act_pending (ite_pending (by simp) (by simp))
  case clickBurstEnd => exact act_pending (by simp)
  case cueListBegin => exact act_pending (ite_pending (by simp) (by simp))
  case countInStart => exact act_pending (s.cueStep_pending .countInStart)
  case countInEnd => exact act_pending (s.cueStep_pending .countInEnd)
  case cueEnd => exact act_pending (s.cueStep_pending .cueEnd)
  case vampReload => exact act_pending (s.cueStep_pending .vampReload)
  case heldAdvanceCarriedOut => exact act_pending (s.cueStep_pending .heldAdvance)
  case heldSkipCarriedOut => exact act_pending (s.cueStep_pending .heldSkip)
  case tunerSilence => exact act_pending (by simp)
  case tunePacingExpiry => exact act_pending (by simp)
  all_goals cases hrow

/-- Settles O54: a message by its row, any other step by its arm. -/
theorem everyStepCompletes : Obligations.EveryStepCompletes := by
  intro c s
  cases hrow : messageRowOf c with
  | some r =>
    rw [exec_of_messageRow hrow]
    exact act_pending (by simp)
  | none => exact exec_event_pending hrow s

/-- Settles O53: the two cases of `step`. -/
theorem stepRunsTheFrontOfTheQueue : Obligations.StepRunsTheFrontOfTheQueue :=
  ⟨fun _ _ _ => rfl, fun s h => by unfold step; rw [h]⟩

/-! ### Reset -/

theorem State.reset_settled : State.reset.Settled := ⟨rfl, by decide, rfl⟩

/-- Settles O60: each invariant of its own block of the reset state. -/
theorem resetMeetsTheInvariants : Obligations.ResetMeetsTheInvariants := by
  refine ⟨State.reset_settled, rfl, Swu.reset_legal.1, Nat.zero_le _,
    State.reset.slotsLegal_iff.mpr (Stg.reset_legal _), Tck.reset_legal, State.reset.inRange_iff.mpr
      ⟨⟨le_refl _, Nat.zero_le _⟩, Swu.reset_legal.2, Line.Legal.all_free rfl, Nat.zero_le _⟩, ?_⟩
  exact ⟨rfl, rfl, rfl, rfl, rfl, rfl, rfl, rfl, rfl, rfl, rfl, rfl, rfl, rfl⟩

/-! ### Answers of a settled state -/

/-- The answer to a message whose effect raises no report: it joins class 2, and whatever else the effect has
done stands. -/
theorem State.reply_quiet {t : State} (h : t.cch.outbox = []) (m : Message) (r : Reply)
    (hr : r.kind.cls = 2) :
    State.reply m (t, r) =
      { t with cch := { t.cch with class2 := t.cch.class2 ++ [r.record m.tag] } } := by
  rw [State.reply_eq m t r hr, h, State.reporting_nil]
  exact congrArg (fun o => { t with cch := { t.cch with outbox := o, class2 := t.cch.class2 ++ [r.record m.tag] } })
    h.symm

/-- Where the effect leaves the channel alone, the answer leaves `s.answered` with the blocks that the effect
has changed. -/
theorem State.reply_of_cch (hs : s.Settled) {rest : List Message} {t : State}
    (h : t.cch = (s.removeHead rest).cch) (m : Message) (r : Reply) (hr : r.kind.cls = 2) :
    State.reply m (t, r) = { t with cch := s.cch.answered rest (r.record m.tag) } := by
  rw [State.reply_quiet (by rw [h]; exact hs.reported) m r hr, h]
  rfl

/-- Settles O1. -/
theorem damagedAndUnknownAnswered : Obligations.DamagedAndUnknownAnswered := fun m rest _ =>
  ⟨fun h => (h.run damagedEffect).trans (congrArg _ (State.reply_ack h.settled m rest _)),
    fun h => (h.run unknownEffect).trans (congrArg _ (State.reply_ack h.settled m rest _))⟩

/-! ### STATUS and METERS (R43, R91) -/

theorem statusEffect_cases (m : Message) (s : State) :
    statusEffect m s =
      if m.body ≠ [] then (s, ack .badLength) else if m.a0 ≠ 0 then (s, ack .range)
      else (s.clearSticky, data s.statusBody) := by
  unfold statusEffect
  split
  · next h => simp [h]
  · next h => exact (if_pos h).symm

theorem statusZeroEffect_cases (m : Message) (s : State) :
    statusZeroEffect m s =
      if m.body ≠ [] then (s, ack .badLength)
      else (s.clearSticky.mapCch fun c => { c with counters := Counters.zero }, data s.statusBody) := by
  unfold statusZeroEffect
  split
  · next h => simp [h]
  · next h => exact (if_pos h).symm

theorem metersEffect_cases (m : Message) (s : State) :
    metersEffect m s =
      if m.body ≠ [] then (s, ack .badLength) else (s.mapSce Sce.clearMeters, data s.metersBody) := by
  unfold metersEffect
  split
  · next h => simp [h]
  · next h => exact (if_pos h).symm

theorem State.statusBody_removeHead (rest : List Message) :
    (s.removeHead rest).statusBody = s.statusData rest := rfl

theorem State.metersBody_removeHead (rest : List Message) : (s.removeHead rest).metersBody = s.meterData := rfl

/-- Settles O3, each message by the cases of its effect. -/
theorem statusAndMetersReadAndClear : Obligations.StatusAndMetersReadAndClear := by
  refine ⟨fun m rest s => ⟨fun h => ?_, fun h => ?_⟩, fun m rest s h => ?_⟩
  · refine (h.run statusEffect).trans (congrArg _ ?_)
    rw [statusEffect_cases, State.statusBody_removeHead]
    split
    · exact State.reply_ack h.settled m rest _
    · split
      · exact State.reply_ack h.settled m rest _
      · rw [State.reply_quiet (by exact h.settled.reported) _ _ rfl]
        rfl
  · refine (h.run statusZeroEffect).trans (congrArg _ ?_)
    rw [statusZeroEffect_cases, State.statusBody_removeHead]
    split
    · exact State.reply_ack h.settled m rest _
    · rw [State.reply_quiet (by exact h.settled.reported) _ _ rfl]
      rfl
  · refine (h.run metersEffect).trans (congrArg _ ?_)
    rw [metersEffect_cases, State.metersBody_removeHead]
    split
    · exact State.reply_ack h.settled m rest _
    · rw [State.reply_of_cch h.settled (by rfl) _ _ rfl]
      rfl

end Sys2Proof.Machine


/-! PROOF. The end of an interval (R3, R4, R6, R11, R14, R36, R91), the status word (R19) and the close of a
frame in which nothing else comes. -/

namespace Sys2Proof.Machine

/-- Two states with the same blocks. -/
theorem State.eq_of_blocks {s t : State} (sli : s.sli = t.sli) (cch : s.cch = t.cch) (tbm : s.tbm = t.tbm)
    (stg : s.stg = t.stg) (swu : s.swu = t.swu) (sce : s.sce = t.sce) (dlu : s.dlu = t.dlu)
    (pmn : s.pmn = t.pmn) (tck : s.tck = t.tck) (csq : s.csq = t.csq) (tun : s.tun = t.tun)
    (frame : s.frame = t.frame) (pending : s.pending = t.pending) : s = t := by
  cases s
  cases t
  congr

/-! ### The parts of an interval's end -/

theorem goodInterval_iff (iv : SyncInterval) :
    goodInterval iv = true ↔ iv.mark = true ∧ iv.clocks = 256 := by
  simp [goodInterval, Config.goodClocks]

theorem Sli.replyDriven_iff (l : Sli) (full : Nat) :
    l.replyDriven full = true ↔ ∃ k, l.map.reply = some k ∧ k.val < full := by
  simp [Sli.replyDriven, Option.any_eq_true]

theorem Cch.wordSent_of_idle {c : Cch} (h : c.flight = none) : c.wordSent = c := by
  simp [Cch.wordSent, h]

theorem Cch.wordSent_of_flight {c : Cch} {f : Flight} {w : Word32} {ws : List Word32}
    (h : c.flight = some f) (hw : f.words = w :: ws) :
    c.wordSent = { c with flight := if ws = [] then none else some { f with words := ws } } := by
  cases ws with
  | nil => simp [Cch.wordSent, h, hw]
  | cons v vs => simp [Cch.wordSent, h, hw]

theorem Cch.sendsSlotmapAck_eq (c : Cch) :
    c.sendsSlotmapAck = c.flight.any fun f => f.ends && f.words.length == 1 := by
  unfold Cch.sendsSlotmapAck
  cases c.flight <;> rfl

theorem drivenPeak_eq (role : Option LinkSlot) (full : Nat) (x : Int) (old : Nat) :
    drivenPeak role full x old =
      match role with
      | some k => if k.val < full then max old x.natAbs else old
      | none => old := by
  cases role <;> simp [drivenPeak]

theorem State.sendReply_sli (full : Nat) (s : State) (h : s.sli.lock = .locked) :
    (s.sendReply full).sli = { s.sli with
      ackSent := if s.sli.replyDriven full then s.sli.ackSent || s.cch.sendsSlotmapAck else s.sli.ackSent } := by
  unfold State.sendReply
  by_cases hd : s.sli.replyDriven full = true
  · simp [h, hd]
  · simp [hd]

theorem State.sendReply_cch (full : Nat) (s : State) (h : s.sli.lock = .locked) :
    (s.sendReply full).cch = if s.sli.replyDriven full = true then s.cch.wordSent else s.cch := by
  unfold State.sendReply
  by_cases hd : s.sli.replyDriven full = true
  · simp [h, hd]
  · simp [hd]

theorem State.sendReply_unlocked (full : Nat) {s : State} (h : s.sli.lock = .unlocked) :
    s.sendReply full = s := by
  simp [State.sendReply, h]

/-! ### An interval in UNLOCKED -/

/-- SDOUT is driven and the interval is judged; nothing else happens in UNLOCKED. -/
theorem State.intervalEnds_unlocked (iv : SyncInterval) {s : State} (h : s.sli.lock = .unlocked) :
    s.intervalEnds iv = { s with
      sli := { s.sli.drive (slotClocks s.sli.markless iv) with
        good := if goodInterval iv = true then min 8 (s.sli.good + 1) else 0
        markless := !iv.mark } } := by
  have hdriven : ((s.mapSli (Sli.drive (slotClocks s.sli.markless iv))).sli).lock = .unlocked := h
  have hpeaks (full : Nat) : s.followPeaks full = s := by simp [State.followPeaks, h]
  unfold State.intervalEnds
  simp only [hpeaks]
  rw [State.sendReply_unlocked _ hdriven]
  simp [State.mapSli, Sli.judge, Sli.drive, h, Config.lockCount]

/-! ### An interval in LOCKED -/

variable {s : State}

theorem State.intervalEnds_sli (iv : SyncInterval) (h : s.sli.lock = .locked) :
    (s.intervalEnds iv).sli =
      let full := fullSlots s.sli.markless iv
      let bad := if goodInterval iv then 0 else s.sli.bad + 1
      { s.sli.drive (slotClocks s.sli.markless iv) with
        bad := bad, markless := !iv.mark
        received := if bad < 2 then some { full := full, words := iv.words } else none
        ackSent := if s.sli.replyDriven full = true then s.sli.ackSent || s.cch.sendsSlotmapAck
          else s.sli.ackSent } := by
  unfold State.intervalEnds
  have hl (n : Nat) : ((s.followPeaks n).mapSli (Sli.drive (slotClocks s.sli.markless iv))).sli.lock = .locked := by
    simpa [Sli.drive] using h
  simp only [State.mapSli_sli, State.sendReply_sli _ _ (hl _), State.followPeaks_frame]
  simp [Sli.judge, Sli.drive, Sli.replyDriven, h, Config.lossCount]
  rfl

theorem State.intervalEnds_cch (iv : SyncInterval) (h : s.sli.lock = .locked) :
    (s.intervalEnds iv).cch =
      if s.sli.replyDriven (fullSlots s.sli.markless iv) = true then s.cch.wordSent else s.cch := by
  unfold State.intervalEnds
  have hl (n : Nat) : ((s.followPeaks n).mapSli (Sli.drive (slotClocks s.sli.markless iv))).sli.lock = .locked := by
    simpa [Sli.drive] using h
  simp only [State.mapSli_cch, State.sendReply_cch _ _ (hl _)]
  simp [Sli.drive, Sli.replyDriven]
  rfl

theorem State.intervalEnds_sce (iv : SyncInterval) (h : s.sli.lock = .locked) :
    (s.intervalEnds iv).sce = { s.sce with
      peakL := drivenPeak s.sli.map.fohL (fullSlots s.sli.markless iv) s.sli.outbound.fohL s.sce.peakL
      peakR := drivenPeak s.sli.map.fohR (fullSlots s.sli.markless iv) s.sli.outbound.fohR s.sce.peakR } := by
  rw [s.intervalEnds_frame iv |>.2.2.2.1]
  simp [State.followPeaks, h]

/-- The blocks that the end of an interval changes. -/
theorem State.intervalEnds_eq (iv : SyncInterval) (h : s.sli.lock = .locked) :
    s.intervalEnds iv = { s with
      sli := (s.intervalEnds iv).sli, cch := (s.intervalEnds iv).cch
      sce := { s.sce with
        peakL := drivenPeak s.sli.map.fohL (fullSlots s.sli.markless iv) s.sli.outbound.fohL s.sce.peakL
        peakR := drivenPeak s.sli.map.fohR (fullSlots s.sli.markless iv) s.sli.outbound.fohR s.sce.peakR } } := by
  rw [← State.intervalEnds_sce iv h]
  apply State.eq_of_blocks <;> simp

/-- A reply word driven in full leaves its queue. -/
theorem State.intervalEnds_sent (iv : SyncInterval) (h : s.sli.lock = .locked) :
    let sent := ∃ k, s.sli.map.reply = some k ∧ k.val < fullSlots s.sli.markless iv
    (¬ sent → (s.intervalEnds iv).cch = s.cch) ∧
    (s.cch.flight = none → (s.intervalEnds iv).cch = s.cch) ∧
    ∀ f w ws, sent → s.cch.flight = some f → f.words = w :: ws →
      (s.intervalEnds iv).cch =
        { s.cch with flight := if ws = [] then none else some { f with words := ws } } := by
  simp only [← Sli.replyDriven_iff, State.intervalEnds_cch iv h]
  refine ⟨fun hn => if_neg hn, fun hf => ?_, fun f w ws hd hf hw => ?_⟩
  · rw [Cch.wordSent_of_idle hf, ite_self]
  · rw [if_pos hd, Cch.wordSent_of_flight hf hw]

theorem State.Settled.run_interval (h : s.Settled) (iv : SyncInterval) :
    exec (.syncIntervalEnd iv) s = .next (s.closeFrame.intervalEnds iv) :=
  h.act_settle fun s => s.closeFrame.intervalEnds iv

theorem State.Settled.closeFrame_lock (h : s.Settled) : s.closeFrame.sli.lock = s.sli.lock :=
  congrArg Prod.fst (s.closeFrame_core h.linkIdle)

/-- Settles O26: the close of the frame keeps the lock, and the interval's end by the lock. -/
theorem syncIntervalsJudged : Obligations.SyncIntervalsJudged := by
  refine ⟨fun s h => State.closeFrame_of_closed (by simp [h]), fun s h => h.closeFrame_lock,
    fun iv s' hs hl => ?_, fun iv s' hs hl => ?_⟩
  · have hlock := hs.closeFrame_lock.trans hl
    rw [hs.run_interval, State.intervalEnds_unlocked iv hlock]
    simp only [goodInterval_iff]
    rfl
  · intro s clocks full drive bad sent peak
    have hpeak (role x old) : peak role x old = drivenPeak role full x old := (drivenPeak_eq role full x old).symm
    have hlock := hs.closeFrame_lock.trans hl
    obtain ⟨hkept, hidle, hsent⟩ := State.intervalEnds_sent iv hlock
    have hsli := State.intervalEnds_sli iv hlock
    simp only [goodInterval_iff] at hsli
    have hack := congrArg Sli.ackSent hsli
    refine ⟨_, hs.run_interval iv, (congrArg Sli.sdout hsli :), (congrArg Sli.bad hsli :),
      (congrArg Sli.markless hsli :),
      (congrArg Sli.received hsli :), (congrArg Sli.lock hsli).trans hlock, (congrArg Sli.map hsli :),
      (congrArg Sli.counter hsli :), (congrArg Sli.waiting hsli :),
      fun hn => hack.trans (if_neg (mt (Sli.replyDriven_iff _ _).mp hn)),
      fun hd => hack.trans ((if_pos ((Sli.replyDriven_iff _ _).mpr hd)).trans
        (congrArg _ (Cch.sendsSlotmapAck_eq _))), hkept, hidle, hsent, ?_⟩
    simp only [hpeak]
    exact State.intervalEnds_eq iv hlock

/-! ### SDOUT behind the reset (R4, R16) -/

theorem Sli.drive_get (l : Sli) (clocks : Nat) (k : Fin 8) :
    (l.drive clocks).sdout.get k = l.drivenSlot clocks k.val := by
  fin_cases k <;> rfl

/-- The power-on map drives a zero word in every slot of an idle link. -/
theorem slotWord_powerOn (k : Fin 8) : SlotMap.powerOn.slotWord OutWords.idle k.val = some 0 := by
  revert k
  decide

theorem wireBits_zero : wireBits 0 = List.replicate 32 false := by decide

/-- Settles O25: RESETN low, what is taken meanwhile, and the first interval behind its release. -/
theorem resetnHoldsAndReleases : Obligations.ResetnHoldsAndReleases := by
  refine ⟨fun s => rfl, fun c s hheld hassert hreset => ?_, fun s => ?_⟩
  · cases hrow : messageRowOf c with
    | some r =>
      rw [exec_of_messageRow hrow]
      exact act_held _ hheld
    | none =>
      cases c <;> cases hrow <;> dsimp only [exec]
      case resetnAssert.refl => exact absurd rfl hassert
      case powerOnReset.refl => exact absurd rfl hreset
      all_goals exact act_held _ hheld
  · refine ⟨_, rfl, rfl, rfl, rfl, rfl, rfl, rfl, rfl, rfl, fun iv u hu k => ?_⟩
    have hs : ({ State.reset with pending := s.pending } : State).Settled := ⟨rfl, State.reset_settled.quiet, rfl⟩
    rw [hs.run_interval, State.closeFrame_of_closed Bool.false_ne_true, State.intervalEnds_unlocked iv rfl] at hu
    cases hu
    calc ((Sli.reset).drive (min 256 iv.clocks)).sdout.get k
        = Sli.reset.drivenSlot (min 256 iv.clocks) k.val := Sli.drive_get _ _ k
      _ = (wireBits 0).take (min 256 iv.clocks - 32 * k.val) := by
        unfold Sli.drivenSlot
        rw [show Sli.reset.map.slotWord Sli.reset.outbound k.val = some 0 from slotWord_powerOn k]
      _ = _ := by rw [wireBits_zero]

/-! ### The status word (R19) -/

section Fields

variable {n m : Nat} (x : BitVec n) (y : BitVec m)

theorem toNat_append_eq : (x ++ y).toNat = x.toNat * 2 ^ m + y.toNat := by
  rw [BitVec.toNat_append, ← Nat.shiftLeft_add_eq_or_of_lt y.isLt, Nat.shiftLeft_eq]

/-- A field above the last part. -/
theorem bits_append_left {hi lo : Nat} (h : m ≤ lo) (hhi : lo ≤ hi) :
    bits hi lo (x ++ y) = bits (hi - m) (lo - m) x := by
  obtain ⟨k, rfl⟩ := Nat.exists_eq_add_of_le h
  have hshift : (x ++ y).toNat >>> (m + k) = x.toNat >>> k := by
    rw [toNat_append_eq, Nat.shiftRight_add, Nat.shiftRight_eq_div_pow _ m, Nat.add_comm,
      Nat.add_mul_div_right _ _ (Nat.two_pow_pos m), Nat.div_eq_of_lt y.isLt, Nat.zero_add]
  have hwidth : hi + 1 - (m + k) = hi - m + 1 - k := by omega
  unfold bits
  rw [hshift, hwidth, Nat.add_sub_cancel_left]

/-- The last part. -/
theorem bits_append_right {hi : Nat} (h : hi + 1 = m) : bits hi 0 (x ++ y) = y.toNat := by
  subst h
  unfold bits
  rw [Nat.shiftRight_zero, toNat_append_eq, Nat.sub_zero, Nat.mul_add_mod', Nat.mod_eq_of_lt y.isLt]

theorem bits_all {hi : Nat} (h : hi + 1 = n) : bits hi 0 x = x.toNat := by
  subst h
  unfold bits
  rw [Nat.shiftRight_zero, Nat.sub_zero, Nat.mod_eq_of_lt x.isLt]

theorem bit_append_left {i : Nat} (h : m ≤ i) : bit i (x ++ y) = bit (i - m) x := by
  simp [bit, BitVec.getLsbD_append, Nat.not_lt.mpr h]

theorem bit_append_right (b : Bool) : bit 0 (x ++ BitVec.ofBool b) = b := by
  rw [bit, BitVec.getLsbD_append]
  simp

end Fields

theorem byteOf_lt {n : Nat} (h : n ≤ 256) (o : Option (Fin n)) : byteOf o < 256 := by
  cases o with
  | none => exact (by decide : 255 < 256)
  | some i => exact i.isLt.trans_le h

theorem State.tunerState_value (s : State) :
    s.tunerState.value = if s.engaged then 2 else if s.tun.mode = .background then 1 else 0 := by
  unfold State.tunerState
  split
  · rfl
  · cases s.tun.mode <;> rfl

theorem TunerState.value_lt (t : TunerState) : t.value < 4 := by cases t <;> decide
theorem CueState.value_lt (c : CueState) : c.value < 8 := by cases c <;> decide

/-- The fields of a word put together from the parts of the status word. -/
theorem statusParts (scene : BitVec 8) (stack : BitVec 3) (tuner : BitVec 2) (cue : BitVec 3)
    (beat : BitVec 4) (hold pending crossfade edited clip reply dropped loading : Bool)
    (counter : BitVec 4) :
    let w := scene ++ stack ++ tuner ++ cue ++ beat ++ BitVec.ofBool hold ++ BitVec.ofBool pending
      ++ BitVec.ofBool crossfade ++ BitVec.ofBool edited ++ BitVec.ofBool clip ++ BitVec.ofBool reply
      ++ BitVec.ofBool dropped ++ BitVec.ofBool loading ++ counter
    bits 31 24 w = scene.toNat ∧ bits 23 21 w = stack.toNat ∧ bits 20 19 w = tuner.toNat ∧
    bits 18 16 w = cue.toNat ∧ bits 15 12 w = beat.toNat ∧ bit 11 w = hold ∧ bit 10 w = pending ∧
    bit 9 w = crossfade ∧ bit 8 w = edited ∧ bit 7 w = clip ∧ bit 6 w = reply ∧ bit 5 w = dropped ∧
    bit 4 w = loading ∧ bits 3 0 w = counter.toNat := by
  simp (disch := decide) only [bits_append_left, bits_append_right, bits_all, bit_append_left,
    bit_append_right, Nat.reduceSub, and_self]

/-- The status word shows its fields. -/
theorem State.statusWord_shows (s : State) :
    let w := s.statusWord
    bits 31 24 w = byteOf s.liveScene ∧ (s.StackLegal → bits 23 21 w = s.swu.stack.length) ∧
    bits 20 19 w = (if s.engaged then 2 else if s.tun.mode = .background then 1 else 0) ∧
    bits 18 16 w = s.csq.state.value ∧ (s.tck.Legal → bits 15 12 w + 1 = s.tck.beat) ∧
    bit 11 w = s.cch.hold ∧ bit 10 w = s.swu.pending.isSome ∧ bit 9 w = s.swu.crossfade.isSome ∧
    bit 8 w = s.sce.live.any Copy.edited ∧ bit 7 w = s.sce.clip ∧
    bit 6 w = decide (0 < s.cch.replyWords) ∧ bit 5 w = s.cch.dropped ∧
    bit 4 w = (s.stg.preparing).isSome ∧ bits 3 0 w = s.sli.counter.toNat % 16 := by
  obtain ⟨hscene, hstack, htuner, hcue, hbeat, hhold, hpending, hcrossfade, hedited, hclip, hreply, hdropped,
    hloading, hcounter⟩ := statusParts (BitVec.ofNat 8 (byteOf s.liveScene))
      (BitVec.ofNat 3 s.swu.stack.length) (BitVec.ofNat 2 s.tunerState.value)
      (BitVec.ofNat 3 s.csq.state.value) (BitVec.ofNat 4 (s.tck.beat - 1)) s.cch.hold
      s.swu.pending.isSome s.swu.crossfade.isSome s.editedFlag s.sce.clip s.replyFlag s.cch.dropped
      s.loadingFlag (s.sli.counter.extractLsb' 0 4)
  refine ⟨hscene.trans ?_, fun hs => hstack.trans ?_, htuner.trans ?_, hcue.trans ?_, fun ht => ?_, hhold,
    hpending, hcrossfade, hedited, hclip, hreply, hdropped, hloading, hcounter.trans ?_⟩
  · exact (BitVec.toNat_ofNat _ _).trans (Nat.mod_eq_of_lt (byteOf_lt (by decide) _))
  · exact (BitVec.toNat_ofNat _ _).trans (Nat.mod_eq_of_lt (hs.1.trans_lt (by decide)))
  · rw [← State.tunerState_value]
    exact (BitVec.toNat_ofNat _ _).trans (Nat.mod_eq_of_lt (TunerState.value_lt _))
  · exact (BitVec.toNat_ofNat _ _).trans (Nat.mod_eq_of_lt (CueState.value_lt _))
  · have hlow := ht.beat.1
    have hhigh := ht.beat.2.trans ht.meter
    have hword : bits 15 12 s.statusWord = (s.tck.beat - 1) % 16 := hbeat.trans (BitVec.toNat_ofNat _ _)
    omega
  · simp

/-! ### A frame in which nothing else comes -/

variable {s : State}

/-- Nothing is still to come at the end of an open frame. -/
theorem State.upToEnd_of_idle (hs : s.Settled) (hf : s.frame = { FrameEnd.closed with isOpen := true })
    (he : s.pmn.events = []) (hq : s.cch.fifo = []) : s.upToEnd = s := by
  have hsettle : s.settle = s := State.settle_of_quiet hs.quiet
  have hlook : s.executorLook = s := by
    unfold State.executorLook
    rw [hq]
  have hblock : s.closeBoundary = s := by
    simp [State.closeBoundary, State.boundaryDue, State.atBoundary, hf, FrameEnd.closed]
  simp [State.upToEnd, State.takePedals, State.closeExecutor, State.closeControl, State.closeBeat,
    State.closeMeasure, he, hlook, hsettle, hf, FrameEnd.closed, hblock]

theorem Sli.switchOver_of_not_due {l : Sli} (h : l.ackSent = false) : l.switchOver = l := by
  simp [Sli.switchOver, h]

theorem State.closeFrame_of_idle (hs : s.Settled) (hf : s.frame = { FrameEnd.closed with isOpen := true })
    (he : s.pmn.events = []) (hq : s.cch.fifo = []) (ha : s.sli.ackSent = false) :
    s.closeFrame = { s.endFrame with frame := FrameEnd.closed } := by
  rw [State.closeFrame_of_open (by rw [hf]), State.upToEnd_of_idle hs hf he hq]
  have hover : s.endFrame.sli.switchOver = s.endFrame.sli := Sli.switchOver_of_not_due ha
  simp [State.mapFrame, State.mapSli, hover]

theorem Cch.serialize_fifo (c : Cch) : c.serialize.fifo = c.fifo := by
  unfold Cch.serialize Cch.startRecord
  (repeat' split) <;> rfl

theorem Cch.sendsSlotmapAck_iff (c : Cch) :
    c.sendsSlotmapAck = true ↔ ∃ f w, c.flight = some f ∧ f.ends = true ∧ f.words = [w] := by
  rw [Cch.sendsSlotmapAck_eq]
  simp [Option.any_eq_true, List.length_eq_one_iff]

/-- The switch-over is due behind an interval that has driven the whole ACK of a SLOTMAP in full (R14). -/
theorem Sli.ackSent_behind_iff {l : Sli} (h : l.ackSent = false) (c : Cch) (full : Nat) :
    (if l.replyDriven full then l.ackSent || c.sendsSlotmapAck else l.ackSent) = true ↔
      (∃ k, l.map.reply = some k ∧ k.val < full) ∧
        ∃ f w, c.flight = some f ∧ f.ends = true ∧ f.words = [w] := by
  rw [← Sli.replyDriven_iff, ← Cch.sendsSlotmapAck_iff, h]
  cases l.replyDriven full <;> simp

theorem Cch.wordSent_fifo (c : Cch) : c.wordSent.fifo = c.fifo := by
  unfold Cch.wordSent
  (repeat' split) <;> rfl

theorem State.intervalEnds_fifo (iv : SyncInterval) (h : s.sli.lock = .locked) :
    (s.intervalEnds iv).cch.fifo = s.cch.fifo := by
  rw [State.intervalEnds_cch iv h]
  split
  · exact Cch.wordSent_fifo _
  · rfl

/-- Settles O35: the fields of the word, and the close of the idle frame with the interval's end. -/
theorem frameEndShowsTheStatus : Obligations.FrameEndShowsTheStatus := by
  refine ⟨State.statusWord_shows, fun iv s hs hf he hq hl ha => ?_⟩
  intro clocks full peak c words drive bad sent
  have hpeak (role x old) : peak role x old = drivenPeak role full x old := (drivenPeak_eq role full x old).symm
  have hclose := State.closeFrame_of_idle hs hf he hq ha
  have hrun := hs.run_interval iv
  rw [hclose] at hrun
  have hlock : ({ s.endFrame with frame := FrameEnd.closed } : State).sli.lock = .locked := hl
  have hsli := State.intervalEnds_sli iv hlock
  have hsce := State.intervalEnds_sce iv hlock
  obtain ⟨htbm, hstg, hswu, -, hdlu, hpmn, htck, hcsq, htun, hframe, -⟩ :=
    State.intervalEnds_frame { s.endFrame with frame := FrameEnd.closed } iv
  obtain ⟨hkept, hidle, hsent⟩ := State.intervalEnds_sent iv hlock
  simp only [goodInterval_iff] at hsli
  have hack := congrArg Sli.ackSent hsli
  refine ⟨_, hrun, hframe, ?_, ?_, hkept, hidle, hsent, ?_, hswu, hstg, hdlu, htck, hcsq, htun, hpmn, htbm,
    (State.intervalEnds_fifo iv hlock).trans ((Cch.serialize_fifo _).trans hq)⟩
  · rw [hack]
    exact hsli
  · rw [hack]
    exact Sli.ackSent_behind_iff ha _ full
  · simp only [hpeak]
    exact hsce

end Sys2Proof.Machine


/-! PROOF. The entry to LOCKED (R8, R84) and the entry to UNLOCKED (R7, R122, R146). -/

namespace Sys2Proof.Machine

variable {s : State}

/-! ### The entry to LOCKED -/

/-- The blocks that the entry to LOCKED changes, before the lines take their values. -/
def State.locked (s : State) : State :=
  { s with
    sli := { s.sli with
      lock := .locked, bad := 0, counter := 0, everLocked := true, received := none
      outbound := OutWords.idle }
    cch := s.cch.enqueue (linkReport s.sli.everLocked)
    sce := { s.sce with
      live := s.sce.live.map Copy.relock, fading := s.sce.fading.map Copy.relock
      mute := if s.engaged then 0 else 32768, fade := 0 } }

theorem State.lock_eq (s : State) : s.lock = s.locked.syncLines := rfl

/-- The lines are all that the hand-over of values changes. -/
theorem State.syncLines_dlu_eq (s : State) : s.syncLines.dlu = { s.dlu with lines := s.syncLines.dlu.lines } := by
  obtain ⟨ls, h⟩ := s.syncLines_dlu
  rw [h]

theorem Sce.handedLine_of_ne {x : Line} (e : Sce) (period : Nat) (l : LineNo) (h : x.state ≠ .live) :
    e.handedLine period l x = x := if_pos h

theorem State.lockDue_of (hl : s.sli.lock = .unlocked) (hg : 8 ≤ s.sli.good) : s.lockDue = true := by
  simp [State.lockDue, hl, hg, Config.lockCount]

/-- Settles O27. -/
theorem lockEntersLocked : Obligations.LockEntersLocked := by
  intro s hheld hl hgood report settled start
  have hrun : exec .lock s = .next s.lock := by
    calc exec .lock s = .next (if s.lockDue then s.lock else s) := act_awake _ hheld
      _ = .next s.lock := by rw [if_pos (State.lockDue_of hl hgood)]
  have hreport : linkReport s.sli.everLocked = report := by
    cases hever : s.sli.everLocked <;> simp only [linkReport, report, hever] <;> rfl
  have hlines (l) : s.locked.syncLines.dlu.lines.get l =
      s.locked.sce.handedLine s.tck.period l (s.dlu.lines.get l) := State.syncLines_handed l _
  rw [s.lock_eq] at hrun
  refine ⟨s.locked.syncLines, hrun, ?_, ?_, ?_, ?_, ?_, ?_⟩
  · simp [State.locked]
  · simp [State.locked, hreport]
  · simp only [State.syncLines_frame]
    rfl
  · simpa using hlines
  · exact fun l hne => (hlines l).trans (Sce.handedLine_of_ne _ _ l hne)
  · apply State.eq_of_blocks
    case dlu => exact State.syncLines_dlu_eq _
    all_goals simp [State.locked]

/-! ### The entry to UNLOCKED -/

theorem State.tunerLoss_tun (s : State) :
    s.tunerLoss.tun = if s.engaged = true ∨ s.tun.mode = .background then s.tun.restartWindow else s.tun := by
  have hoff : s.tunerState = .off ↔ ¬ (s.engaged = true ∨ s.tun.mode = .background) := by
    unfold State.tunerState
    cases s.engaged <;> cases s.tun.mode <;> simp
  unfold State.tunerLoss
  simp only [hoff, ite_not]
  split <;> rfl

/-- What a completion at a link loss makes of a line that is then lost (R116, R122). -/
theorem Line.linkLoss_live {x : Line} (h : x.state = .live) :
    x.linkLoss = { x with current := x.held.getD x.target, target := x.held.getD x.target, held := none
                          position := 0, mem := [] } := by
  simp [Line.linkLoss, h]

/-- The latest time of a line that has just been handed its values. -/
theorem Line.linkLoss_handed {y : Line} (h : y.state = .live) (period : Nat) (st : Stage) :
    (y.handed period st).linkLoss =
      let time :=
        if (st.val 2).toNat = 0 then (st.val 3).toNat
        else max 1 (min (period * (st.val 4).toNat / (st.val 5).toNat) 98303)
      let latest := if y.mem ≠ [] ∧ y.target = y.current then y.held.getD time else time
      { y with
        feedback := (st.val 6).toNat, wet := (st.val 7).toNat, pan := (st.val 8).toNat
        tail := decide (st.val 9 = 1)
        current := latest, target := latest, held := none, position := 0, mem := [] } := by
  rw [Line.linkLoss_live (by rw [Line.handed_state, h])]
  unfold Line.handed
  dsimp only
  generalize (if (st.val 2).toNat = 0 then (st.val 3).toNat
    else max 1 (min (period * (st.val 4).toNat / (st.val 5).toNat) 98303)) = time
  by_cases hmem : y.mem = []
  · simp [hmem]
  · by_cases hfade : y.target = y.current
    · by_cases htime : time = y.current
      · simp [hmem, hfade, htime]
      · simp [hmem, hfade, htime]
    · by_cases htime : time = y.target
      · simp [hmem, hfade, htime]
      · simp [hmem, hfade, htime]

theorem State.completeCrossfade_idle (b : Bool) (h : s.swu.crossfade = none) : s.completeCrossfade b = s := by
  simp [State.completeCrossfade, h]

theorem State.completeCrossfade_cch_loss (s : State) : (s.completeCrossfade true).cch = s.cch := by
  unfold State.completeCrossfade
  cases s.swu.crossfade with
  | none => rfl
  | some x => cases s.stg.fadingSlot <;> simp

/-- What the link and the channel lose, before the crossfade in flight ends. -/
def State.unlinked (s : State) : State := (s.mapSli Sli.linkLoss).mapCch Cch.linkLoss

/-- The lines behind a link loss. -/
theorem State.linkLoss_lines (s : State) (l : LineNo) :
    s.linkLoss.dlu.lines.get l = ((s.unlinked.completeCrossfade true).dlu.lines.get l).linkLoss := by
  simp [State.linkLoss, State.unlinked]

theorem Line.linkLoss_tail {x : Line} (h : x.state = .tail) : x.linkLoss = Line.free := by
  simp [Line.linkLoss, h]

theorem Line.linkLoss_free {x : Line} (h : x.state = .free) : x.linkLoss = x := by
  simp [Line.linkLoss, h]

/-- A line that is not LIVE at a link loss. -/
theorem State.linkLoss_line_of_ne {l : LineNo} (h : (s.dlu.lines.get l).state ≠ .live) :
    s.linkLoss.dlu.lines.get l = (s.dlu.lines.get l).linkLoss := by
  rw [State.linkLoss_lines]
  cases hx : s.swu.crossfade with
  | none => rw [State.completeCrossfade_idle true (by exact hx)]; rfl
  | some x =>
    have hkept : (s.dlu.lines.get l).release true = s.dlu.lines.get l := by simp [Line.release, h]
    rw [State.completeCrossfade_lines true (by exact hx), show s.unlinked.dlu = s.dlu from rfl, hkept,
      Sce.handedLine_of_ne _ _ _ h]

theorem State.linkLoss_line_idle {l : LineNo} (h : s.swu.crossfade = none) :
    s.linkLoss.dlu.lines.get l = (s.dlu.lines.get l).linkLoss := by
  rw [State.linkLoss_lines, State.completeCrossfade_idle true (by exact h)]
  rfl

/-- A LIVE line of the old scene alone is freed; any other takes the values of the LIVE copy's stage. -/
theorem State.linkLoss_line_live {x : Crossfade} {l : LineNo} (h : s.swu.crossfade = some x)
    (hl : (s.dlu.lines.get l).state = .live) :
    s.linkLoss.dlu.lines.get l =
      if (s.dlu.lines.get l).owner1 = none then Line.free
      else match s.sce.live.bind (·.delayOn l) with
        | none => Line.linkLoss { s.dlu.lines.get l with owner2 := none }
        | some st => (Line.handed s.tck.period st { s.dlu.lines.get l with owner2 := none }).linkLoss := by
  rw [State.linkLoss_lines, State.completeCrossfade_lines true (by exact h),
    show s.unlinked.dlu = s.dlu from rfl, show s.unlinked.tck = s.tck from rfl,
    show s.unlinked.sce = s.sce from rfl]
  by_cases ho : (s.dlu.lines.get l).owner1 = none
  · rw [if_pos ho]
    simp [Line.release, hl, ho, Sce.handedLine, Line.free, Line.linkLoss]
  · rw [if_neg ho]
    have hrelease : (s.dlu.lines.get l).release true = { s.dlu.lines.get l with owner2 := none } := by
      simp [Line.release, hl, ho]
    rw [hrelease]
    cases hst : s.sce.live.bind (·.delayOn l) <;> simp [Sce.handedLine, hl, hst]

/-- A line behind a link loss, by its state and by the crossfade in flight (R116, R122). -/
theorem State.linkLoss_line (s : State) (l : LineNo) : s.linkLoss.dlu.lines.get l =
    let x := s.dlu.lines.get l
    let lost : Line → Nat → Line := fun y d =>
      { y with current := d, target := d, held := none, position := 0, mem := [] }
    match x.state with
    | .free => x
    | .tail => Line.free
    | .live =>
      if s.swu.crossfade = none then lost x (x.held.getD x.target)
      else if x.owner1 = none then Line.free
      else
        let y := { x with owner2 := none }
        match s.sce.live.bind (·.delayOn l) with
        | none => lost y (x.held.getD x.target)
        | some st =>
          let time :=
            if (st.val 2).toNat = 0 then (st.val 3).toNat
            else max 1 (min (s.tck.period * (st.val 4).toNat / (st.val 5).toNat) 98303)
          lost
            { y with
              feedback := (st.val 6).toNat, wet := (st.val 7).toNat, pan := (st.val 8).toNat
              tail := decide (st.val 9 = 1) }
            (if x.mem ≠ [] ∧ x.target = x.current then x.held.getD time else time) := by
  dsimp only
  cases hl : (s.dlu.lines.get l).state with
  | free => rw [State.linkLoss_line_of_ne (by simp [hl]), Line.linkLoss_free hl]
  | tail => rw [State.linkLoss_line_of_ne (by simp [hl]), Line.linkLoss_tail hl]
  | live =>
    cases hx : s.swu.crossfade with
    | none => rw [State.linkLoss_line_idle hx, Line.linkLoss_live hl, hl, if_pos rfl]
    | some x =>
      rw [State.linkLoss_line_live hx hl, if_neg (Option.some_ne_none x)]
      cases s.sce.live.bind (·.delayOn l) with
      | none => dsimp only; rw [Line.linkLoss_live (by exact hl), hl]
      | some st => dsimp only; rw [Line.linkLoss_handed (by exact hl), hl]

theorem filter_bne_eq {α : Type} [DecidableEq α] (l : List α) (i : α) :
    l.filter (· != i) = l.filter (· ≠ i) :=
  List.filter_congr fun x _ => by by_cases h : x = i <;> simp [h]

theorem State.lossDue_of (hl : s.sli.lock = .locked) (hb : 2 ≤ s.sli.bad) : s.lossDue = true := by
  simp [State.lossDue, hl, hb, Config.lossCount]

/-- Settles O28, block by block. -/
theorem linkLossEntersUnlocked : Obligations.LinkLossEntersUnlocked := by
  intro s hheld hl hbad
  have hrun : exec .linkLoss s = .next s.linkLoss := by
    calc exec .linkLoss s = .next (if s.lossDue then s.linkLoss else s) := act_awake _ hheld
      _ = .next s.linkLoss := by rw [if_pos (State.lossDue_of hl hbad)]
  have hcch : s.linkLoss.cch = s.cch.linkLoss := by
    simp [State.linkLoss, State.completeCrossfade_cch_loss]
  have hswu : s.linkLoss.swu = (s.unlinked.completeCrossfade true).swu := by
    simp [State.linkLoss, State.unlinked]
  have hstg : s.linkLoss.stg = (s.unlinked.completeCrossfade true).stg := by
    simp [State.linkLoss, State.unlinked]
  have hsce : s.linkLoss.sce = (s.unlinked.completeCrossfade true).sce := by
    simp [State.linkLoss, State.unlinked]
  refine ⟨s.linkLoss, hrun, s.linkLoss_sli, ?_, ?_, ?_, ?_, ?_, ?_, ?_, ?_, ?_, ?_, ?_, ?_, fun hx => ?_,
    fun hx => ?_, fun l => ?_, fun f => ?_, ?_, ?_, ?_, ?_⟩
  iterate 11 rw [hcch]; rfl
  · rw [hswu]
    cases hx : s.swu.crossfade with
    | none =>
      rw [State.completeCrossfade_idle true (by exact hx)]
      exact congrArg (fun x => { s.swu with crossfade := x }) hx
    | some x => exact (State.completeCrossfade_sce (s := s.unlinked) hx true).2
  · rw [hstg, hsce, State.completeCrossfade_idle true (by exact hx)]
    exact ⟨rfl, rfl⟩
  · obtain ⟨x, hx⟩ := Option.isSome_iff_exists.mp hx
    have hready := State.completeCrossfade_stg (s := s.unlinked) hx true
    refine ⟨hsce.trans (State.completeCrossfade_sce (s := s.unlinked) hx true).1, hstg.trans (hready.trans ?_)⟩
    show (match s.stg.fadingSlot with | none => _ | some i => _) = _
    simp only [filter_bne_eq]
    rfl
  · exact State.linkLoss_line s l
  · simp [State.linkLoss, Pmn.linkLoss]
  · simp [State.linkLoss, Config.burstLength]
  · unfold State.linkLoss
    rw [State.tunerLoss_tun]
    simp [State.engaged]
  · simp [State.linkLoss]
  · simp [State.linkLoss]

end Sys2Proof.Machine


/-! PROOF. The assembler and the command FIFO (R23–R31), and the reply queue by class (R36–R38). -/

namespace Sys2Proof.Machine

/-! ### The parts of an arrival -/

theorem Cch.arrival_of_idle {c : Cch} (h : c.asm.assembling = false) (w : ControlWord) :
    c.arrival w =
      match w with
      | .idle => c
      | .head len code tag a0 => c.takeHead len code tag a0
      | .body seq _ => c.countFragment.enqueue (faultReport 0 .fragment 0 0 seq .bodyOutside)
      | .abort => c := if_neg (by simp [h])

theorem Cch.arrival_of_assembling {c : Cch} (h : c.asm.assembling = true) (w : ControlWord) :
    c.arrival w =
      match w with
      | .idle => { c with asm := { c.asm with timeout := c.asm.timeout + 1 } }
      | .head len code tag a0 =>
        ((c.countFragment.faultOpen .fragment 0 .headInside).discardOpen).takeHead len code tag a0
      | .body seq data => c.takeBody seq data
      | .abort => c.discardOpen := if_pos h

theorem Cch.followFill_eq (c : Cch) : c.followFill = { c with hold := holdAt c.fill c.hold } := rfl

theorem Cch.dropWord_eq (c : Cch) : c.dropWord = { c with
    counters := { c.counters with wordsDropped := min 65535 (c.counters.wordsDropped + 1) } } := rfl

theorem Cch.completeOpen_of_headless {c : Cch} (h : c.asm.headless = true) :
    c.completeOpen = ({ c with asm := { c.asm with assembling := false } } : Cch).enqueue
      (faultReport c.asm.tag .overrun c.asm.code c.asm.bodies 0 .timeoutOverrun) := if_pos h

theorem Cch.completeOpen_of_tail {c : Cch} (h : c.asm.headless = false) {msg : Message}
    (ht : c.tail = some msg) :
    c.completeOpen = { c with
      asm := { c.asm with assembling := false }
      tail := none, fifo := c.fifo ++ [{ msg with damaged := c.asm.damaged }] } := by
  simp [Cch.completeOpen, h, ht]

/-! ### A HEAD in IDLE -/

/-- The assembler behind a HEAD. -/
def Assembler.opened (len code : Nat) (tag : Byte) (a0 : Nat) (headless : Bool) : Assembler :=
  { assembling := decide (len ≠ 0), len := len, code := code, tag := tag, a0 := a0
    bodies := 0, timeout := 0, damaged := false, headless := headless }

theorem Cch.fill_opened {c : Cch} (h : c.tail = none) (a : Assembler) (m : Message) (hm : m.body = []) :
    ({ c with asm := a, tail := some m } : Cch).fill = c.fill + 1 := by
  simp [Cch.fill, h, Message.words, hm]

theorem Cch.takeHead_room {c : Cch} (h : c.tail = none) (hr : c.fill < 128) (len code : Nat) (tag : Byte)
    (a0 : Nat) :
    let msg : Message := { len := len, code := code, tag := tag, a0 := a0, body := [], damaged := false }
    c.takeHead len code tag a0 = { c with
      asm := Assembler.opened len code tag a0 false
      fifo := if len = 0 then c.fifo ++ [msg] else c.fifo
      tail := if len = 0 then none else some msg
      hold := holdAt (c.fill + 1) c.hold } := by
  have hfull : ¬ Config.fifoCapacity ≤ c.fill := not_le.mpr hr
  unfold Cch.takeHead
  simp only [hfull, if_false, Cch.followFill_eq, decide_false]
  rw [Cch.fill_opened h _ _ rfl]
  by_cases hl : len = 0
  · rw [if_pos hl, Cch.completeOpen_of_tail rfl rfl]
    simp [Assembler.opened, hl]
  · simp [Assembler.opened, hl]

theorem Cch.takeHead_full {c : Cch} (hr : 128 ≤ c.fill) (len code : Nat) (tag : Byte) (a0 : Nat) :
    let dropped : Cch := { c with
      asm := Assembler.opened len code tag a0 true
      counters := { c.counters with wordsDropped := min 65535 (c.counters.wordsDropped + 1) } }
    c.takeHead len code tag a0 =
      if len = 0 then dropped.enqueue (faultReport tag .overrun code 0 0 .timeoutOverrun) else dropped := by
  have hfull : Config.fifoCapacity ≤ c.fill := hr
  unfold Cch.takeHead
  simp only [hfull, if_true, Cch.dropWord_eq, decide_true]
  by_cases hl : len = 0
  · rw [if_pos hl, Cch.completeOpen_of_headless rfl]
    simp [Assembler.opened, hl]
  · simp [Assembler.opened, hl]

/-! ### A BODY in sequence -/

/-- The count of a BODY that keeps the sequence; the L-th completes the message. -/
def Cch.bodyTaken (c : Cch) : Cch :=
  let d : Cch := { c with asm := { c.asm with bodies := c.asm.bodies + 1, timeout := 0 } }
  if c.asm.bodies + 1 = c.asm.len then d.completeOpen else d

theorem Cch.writeBody_asm (data : Word24) (c : Cch) :
    (c.writeBody data).asm.bodies = c.asm.bodies ∧ (c.writeBody data).asm.len = c.asm.len := by
  unfold Cch.writeBody
  (repeat' split) <;> exact ⟨rfl, rfl⟩

theorem Cch.arrival_body {c : Cch} (h : c.asm.assembling = true) (data : Word24) :
    c.arrival (.body c.asm.bodies data) = (c.writeBody data).bodyTaken := by
  obtain ⟨hbodies, hlen⟩ := c.writeBody_asm data
  rw [Cch.arrival_of_assembling h]
  simp only [Cch.takeBody, if_true, Cch.bodyTaken, hbodies, hlen]

theorem Cch.bodyTaken_open {c : Cch} (h : c.asm.bodies + 1 ≠ c.asm.len) :
    c.bodyTaken = { c with asm := { c.asm with bodies := c.asm.bodies + 1, timeout := 0 } } := if_neg h

theorem Cch.bodyTaken_complete {c : Cch} (h : c.asm.bodies + 1 = c.asm.len) (hh : c.asm.headless = false)
    {msg : Message} (ht : c.tail = some msg) :
    c.bodyTaken = { c with
      asm := { c.asm with bodies := c.asm.bodies + 1, timeout := 0, assembling := false }
      tail := none, fifo := c.fifo ++ [{ msg with damaged := c.asm.damaged }] } := by
  rw [Cch.bodyTaken, if_pos h, Cch.completeOpen_of_tail (by exact hh) (by exact ht)]

theorem Cch.bodyTaken_headless {c : Cch} (h : c.asm.bodies + 1 = c.asm.len) (hh : c.asm.headless = true) :
    c.bodyTaken = ({ c with
      asm := { c.asm with bodies := c.asm.bodies + 1, timeout := 0, assembling := false } } : Cch).enqueue
        (faultReport c.asm.tag .overrun c.asm.code (c.asm.bodies + 1) 0 .timeoutOverrun) := by
  rw [Cch.bodyTaken, if_pos h, Cch.completeOpen_of_headless (by exact hh)]

theorem Cch.writeBody_dropped {c : Cch} (h : c.asm.headless = true ∨ c.asm.damaged = true) (data : Word24) :
    c.writeBody data = c.dropWord := if_pos (by simpa using h)

theorem Cch.writeBody_full {c : Cch} (hh : c.asm.headless = false) (hd : c.asm.damaged = false)
    (hr : 128 ≤ c.fill) (data : Word24) :
    c.writeBody data = { c.dropWord with asm := { c.asm with damaged := true } } := by
  have hfull : Config.fifoCapacity ≤ c.fill := hr
  simp [Cch.writeBody, hh, hd, hfull]

theorem Cch.fill_longer {c : Cch} {msg : Message} (h : c.tail = some msg) (data : Word24) :
    ({ c with tail := some { msg with body := msg.body ++ [data] } } : Cch).fill = c.fill + 1 := by
  simp [Cch.fill, h, Message.words]
  omega

theorem Cch.writeBody_room {c : Cch} (hh : c.asm.headless = false) (hd : c.asm.damaged = false)
    (hr : c.fill < 128) {msg : Message} (h : c.tail = some msg) (data : Word24) :
    c.writeBody data = { c with
      tail := some { msg with body := msg.body ++ [data] }, hold := holdAt (c.fill + 1) c.hold } := by
  have hroom : ¬ Config.fifoCapacity ≤ c.fill := not_le.mpr hr
  simp only [Cch.writeBody, hh, hd, Bool.or_self, Bool.false_eq_true, if_false, hroom, h, Cch.followFill_eq]
  rw [Cch.fill_longer h]

/-- Settles O30, word by word and by the state of the assembler. -/
theorem assemblerOpensAndCompletes : Obligations.AssemblerOpensAndCompletes := by
  intro c overrun
  refine ⟨fun h => Cch.arrival_of_idle h _, fun h => Cch.arrival_of_assembling h _,
    fun h htail len code tag a0 => ⟨fun hr => ?_, fun hr => ?_⟩,
    fun h hh hd msg data htail => ⟨fun hr hlen => ?_, fun hr hlen => ?_, fun hr => ?_⟩,
    fun h data => ⟨fun hdrop hlen => ?_, fun hh hlen => ?_, fun hh hd hlen msg htail => ?_⟩⟩
  · exact (Cch.arrival_of_idle h _).trans (Cch.takeHead_room htail hr len code tag a0)
  · exact (Cch.arrival_of_idle h _).trans (Cch.takeHead_full hr len code tag a0)
  · rw [Cch.arrival_body h, Cch.writeBody_room hh hd hr htail, Cch.bodyTaken_open (by exact hlen)]
  · rw [Cch.arrival_body h, Cch.writeBody_room hh hd hr htail,
      Cch.bodyTaken_complete (by exact hlen) (by exact hh) rfl]
    simp [hd]
  · rw [Cch.arrival_body h, Cch.writeBody_full hh hd hr]
    dsimp only
    split
    · next hlen => exact Cch.bodyTaken_complete (by exact hlen) (by exact hh) (by exact htail)
    · next hlen => exact Cch.bodyTaken_open (by exact hlen)
  · rw [Cch.arrival_body h, Cch.writeBody_dropped hdrop]
    exact Cch.bodyTaken_open (by exact hlen)
  · rw [Cch.arrival_body h, Cch.writeBody_dropped (.inl hh)]
    exact Cch.bodyTaken_headless (by exact hlen) (by exact hh)
  · rw [Cch.arrival_body h, Cch.writeBody_dropped (.inr hd),
      Cch.bodyTaken_complete (by exact hlen) (by exact hh) (by exact htail)]
    simp [Cch.dropWord_eq, hd]

/-! ### Failures of the assembly (R25, R26, R28) -/

theorem Cch.discardOpen_assembling (c : Cch) : c.discardOpen.asm.assembling = false := rfl

/-- Settles O31. -/
theorem assemblyFailuresReported : Obligations.AssemblyFailuresReported := by
  refine ⟨fun c => ?_, fun s hheld h htime => ?_⟩
  · intro counted report discarded
    refine ⟨fun h => ⟨fun seq data hseq => ?_, fun len code tag a0 => ?_⟩, fun h seq data => ?_⟩
    · rw [Cch.arrival_of_assembling h]
      exact if_neg hseq
    · rw [Cch.arrival_of_assembling h]
      have hidle := (c.countFragment.faultOpen .fragment 0 .headInside).discardOpen_assembling
      exact (Cch.arrival_of_idle hidle (.head len code tag a0)).symm
    · rw [Cch.arrival_of_idle h]
      rfl
  · intro a report queued
    have htimed : s.cch.timedOut = true := by simp [Cch.timedOut, h, htime, Config.assemblyTimeout]
    obtain ⟨hasm, hfifo, -, hhold, -, -⟩ : queued.asm = a ∧ queued.fifo = s.cch.fifo ∧ _ ∧
        queued.hold = s.cch.hold ∧ _ ∧ _ := Cch.enqueue_frame report _
    have hfill : ({ queued with tail := none } : Cch).fill = ({ s.cch with tail := none } : Cch).fill :=
      Cch.fill_congr hfifo rfl
    calc exec .assemblyTimeout s = .next (if s.cch.timedOut then s.mapCch Cch.timeOut else s) :=
          act_awake _ hheld
      _ = .next { s with cch := queued.discardOpen } := by rw [if_pos htimed]; rfl
      _ = _ := by rw [Cch.discardOpen_eq, hfill, hasm, hhold]

/-! ### The reply queue by class (R36–R38) -/

theorem Cch.enqueue_dropped {c : Cch} {r : Record} (h : r.kind.cls = 1 ∨ r.kind.cls = 3)
    (hr : c.room < r.length) : c.enqueue r = { c with
      dropped := true
      counters := { c.counters with recordsDropped := min 65535 (c.counters.recordsDropped + 1) } } :=
  Cch.enqueue_full h hr

theorem Cch.enqueue_class1 {c : Cch} {r : Record} (h : r.kind.cls = 1) (hr : r.length ≤ c.room) :
    c.enqueue r = { c with class1 := c.class1 ++ [r] } := by
  simp [Cch.enqueue, h, not_lt.mpr hr]

theorem Cch.enqueue_class3 {c : Cch} {r : Record} (h : r.kind.cls = 3) (hr : r.length ≤ c.room) :
    c.enqueue r = { c with class3 := c.class3 ++ [r] } := by
  simp [Cch.enqueue, h, not_lt.mpr hr]

theorem rbodies_length (i : Nat) (ds : List Word24) : (rbodies i ds).length = ds.length := by
  induction ds generalizing i with
  | nil => rfl
  | cons d ds ih => simp [rbodies, ih]

theorem rbodies_get (n i : Nat) (ds : List Word24) (h : i < ds.length) :
    (rbodies n ds)[i]? = some (rbody (n + i) (ds.getD i 0)) := by
  induction ds generalizing n i with
  | nil => exact absurd h (Nat.not_lt_zero i)
  | cons d ds ih =>
    cases i with
    | zero => rfl
    | succ i =>
      have hi : i < ds.length := Nat.lt_of_succ_lt_succ h
      have hnext := ih (n + 1) i hi
      rw [Nat.add_right_comm n 1 i] at hnext
      simpa [rbodies, Nat.add_assoc] using hnext

theorem Cch.serialize_of_idle {c : Cch} (h : c.flight = none) : c.serialize = c.startRecord := by
  simp [Cch.serialize, h]

/-- The kinds of class 1 and class 3. -/
theorem RecordKind.cls_of_report {k : RecordKind}
    (h : k ∈ [RecordKind.link, .fault, .switch, .gate, .cue, .pedal, .tempo, .arm]) :
    (k = .link ∨ k = .fault → k.cls = 1) ∧ (k ≠ .link ∧ k ≠ .fault → k.cls = 3) := by
  cases k <;> simp_all [RecordKind.cls]

/-- Settles O34, by the class of the record and the classes that hold one. -/
theorem replyQueueByClass : Obligations.ReplyQueueByClass := by
  refine ⟨fun c r hkind => ?_, fun c h => if_pos h, fun c r rs h => ?_⟩
  · obtain ⟨hone, hthree⟩ := RecordKind.cls_of_report hkind
    refine ⟨fun hr => Cch.enqueue_dropped ?_ hr, fun hr => ⟨fun hk => Cch.enqueue_class1 (hone hk) hr,
      fun hk => Cch.enqueue_class3 (hthree hk) hr⟩⟩
    by_cases hk : r.kind = .link ∨ r.kind = .fault
    · exact .inl (hone hk)
    · exact .inr (hthree (not_or.mp hk))
  · have hwords : r.words.length = 1 + r.body.length := by
      simp [Record.words, rbodies_length, Nat.add_comm]
    refine ⟨fun h1 => ?_, fun h1 h2 => ?_, fun h1 h2 h3 => ?_, fun h1 h2 h3 h4 => ?_, rfl, hwords,
      fun i hi => ?_⟩
    · simp [Cch.serialize_of_idle h, Cch.startRecord, h1, Record.start]
    · simp [Cch.serialize_of_idle h, Cch.startRecord, h1, h2, Record.start]
    · simp [Cch.serialize_of_idle h, Cch.startRecord, h1, h2, h3, Record.start]
    · simp [Cch.serialize_of_idle h, Cch.startRecord, h1, h2, h3, h4, Record.start]
    · simpa [Record.words] using rbodies_get 0 i r.body hi

end Sys2Proof.Machine


/-! PROOF. The settings (R62, R118, R150, R175, R180), the tuner's settings (R194, R195, R198) and RESTART
(R44). -/

namespace Sys2Proof.Machine

variable {s : State}

/-! ### A message taken in a settled state -/

section Taken

variable {row : MessageRow} {m : Message} {rest : List Message} {eff : Message → State → State × Reply}

/-- A message that is answered and does nothing else. -/
theorem Takes.answers (h : Takes row m rest s) {r : Reply}
    (heff : eff m (s.removeHead rest) = (s.removeHead rest, r)) (hr : r.kind.cls = 2) :
    takeMessageRow row eff s = .next (s.answered m rest r) := by
  rw [h.run eff, heff, State.reply_removeHead h.settled m rest r hr]

/-- A message that is answered and changes blocks other than the channel. -/
theorem Takes.answers_with (h : Takes row m rest s) {t : State} {r : Reply}
    (heff : eff m (s.removeHead rest) = (t, r)) (hcch : t.cch = (s.removeHead rest).cch)
    (hr : r.kind.cls = 2) :
    takeMessageRow row eff s = .next { t with cch := s.cch.answered rest (r.record m.tag) } := by
  rw [h.run eff, heff, State.reply_of_cch h.settled hcch m r hr]

end Taken

/-! ### GATE_LIMIT, TAIL_CFG, PEDAL_CFG, METER and CLICK -/

theorem gateLimitEffect_cases (m : Message) (s : State) :
    gateLimitEffect m s =
      if m.body ≠ [] then (s, ack .badLength) else if 128 < m.a0 then (s, ack .range)
      else (s.mapTbm fun tb => { tb with gateLimit := m.a0 }, ack .ok) := by
  unfold gateLimitEffect
  split
  · next h => simp [h]
  · next h => exact (if_pos h).symm

theorem tailCfgEffect_badLength {m : Message} (h : m.body.length ≠ 3) (s : State) :
    tailCfgEffect m s = (s, ack .badLength) := by
  unfold tailCfgEffect
  split
  · next hb => exact absurd (by rw [hb]; rfl) h
  · rfl

theorem tailCfgEffect_of_body {m : Message} {w1 w2 w3 : Word24} (h : m.body = [w1, w2, w3]) (s : State) :
    tailCfgEffect m s = (s.mapDlu fun d =>
      { d with threshold := min w1.toNat 8388607, quietTime := max 1 (min w2.toNat 65535)
               limit := max 1 (min w3.toNat 120) }, ack .ok) := by
  simp only [tailCfgEffect, h, Nat.min_comm]

theorem pedalCfgEffect_badLength {m : Message} (h : m.body.length ≠ 1) (s : State) :
    pedalCfgEffect m s = (s, ack .badLength) := by
  unfold pedalCfgEffect
  split
  · next hb => exact absurd (by rw [hb]; rfl) h
  · rfl

theorem pedalCfgEffect_of_body {m : Message} {w : Word24} (h : m.body = [w]) (s : State) :
    pedalCfgEffect m s = if m.a0 = 0 then (s, ack .range)
      else (s.mapPmn fun p => { p with debounce := m.a0, reporting := bit 0 w }, ack .ok) := by
  simp only [pedalCfgEffect, h]

theorem Tck.setMeter_eq (n : Nat) (t : Tck) :
    t.setMeter n = { t with meter := n, beat := if n < t.beat then n else t.beat } := by
  unfold Tck.setMeter
  congr 1
  split <;> omega

theorem meterEffect_cases (m : Message) (s : State) :
    meterEffect m s =
      if m.body ≠ [] then (s, ack .badLength) else if m.a0 = 0 ∨ 16 < m.a0 then (s, ack .range)
      else (s.mapTck fun t => { t with meter := m.a0, beat := if m.a0 < t.beat then m.a0 else t.beat },
        ack .ok) := by
  unfold meterEffect
  split
  · next h =>
    have hrange : (1 ≤ m.a0 ∧ m.a0 ≤ 16) ↔ ¬ (m.a0 = 0 ∨ 16 < m.a0) := by omega
    simp only [h, ne_eq, not_true_eq_false, if_false, hrange, ite_not]
    split
    · rfl
    · simp only [State.mapTck, Tck.setMeter_eq]
  · next h => exact (if_pos h).symm

theorem clickEffect_badLength {m : Message} (h : m.body.length ≠ 0 ∧ m.body.length ≠ 2) (s : State) :
    clickEffect m s = (s, ack .badLength) := by
  unfold clickEffect
  split
  · next hb => exact absurd (by rw [hb]; rfl) h.1
  · next hb => exact absurd (by rw [hb]; rfl) h.2
  · rfl

theorem clickModeOf_none {n : Nat} (h : 2 < n) : clickModeOf n = none := by
  obtain ⟨k, rfl⟩ := Nat.exists_eq_add_of_lt h
  simp [clickModeOf, Nat.add_comm, Nat.add_left_comm]

theorem clickEffect_range {m : Message} (hl : m.body.length = 0 ∨ m.body.length = 2) (h : 2 < m.a0)
    (s : State) : clickEffect m s = (s, ack .range) := by
  unfold clickEffect
  rw [clickModeOf_none h]
  split
  · rfl
  · rfl
  · next hnil htwo =>
    rcases hl with hl | hl
    · exact absurd (List.length_eq_zero_iff.mp hl) hnil
    · obtain ⟨a, b, hb⟩ := List.length_eq_two.mp hl
      exact absurd hb (htwo a b)

/-- The mode that A0 names. -/
theorem clickModeOf_some {n : Nat} {mode : ClickMode}
    (h : (n = 0 ∧ mode = .off) ∨ (n = 1 ∧ mode = .on) ∨ (n = 2 ∧ mode = .countInOnly)) :
    clickModeOf n = some mode := by
  rcases h with ⟨rfl, rfl⟩ | ⟨rfl, rfl⟩ | ⟨rfl, rfl⟩ <;> rfl

theorem clickEffect_of_nil {m : Message} {mode : ClickMode} (h : m.body = [])
    (hmode : clickModeOf m.a0 = some mode) (s : State) :
    clickEffect m s = (s.mapTck fun t => { t with clickMode := mode }, ack .ok) := by
  simp only [clickEffect, h, hmode]

theorem clickEffect_of_levels {m : Message} {mode : ClickMode} {w1 w2 : Word24} (h : m.body = [w1, w2])
    (hmode : clickModeOf m.a0 = some mode) (s : State) :
    clickEffect m s = (s.mapTck fun t =>
      { t with clickMode := mode, accentLevel := min (bits 15 0 w1) 32768
               normalLevel := min (bits 15 0 w2) 32768 }, ack .ok) := by
  simp only [clickEffect, h, hmode, clickLevel, Nat.min_comm]

/-- Settles O19, command by command. -/
theorem settingsTakenOrRefused : Obligations.SettingsTakenOrRefused := by
  intro m rest s
  refine ⟨fun h => ?_, fun h => ⟨fun hl => h.answers (tailCfgEffect_badLength hl _) rfl,
      fun w1 w2 w3 hb => h.answers_with (tailCfgEffect_of_body hb _) rfl rfl⟩,
    fun h => ⟨fun hl => h.answers (pedalCfgEffect_badLength hl _) rfl, fun w hb => ?_⟩, fun h => ?_,
    fun h => ⟨fun hl => h.answers (clickEffect_badLength hl _) rfl,
      fun hl hr => h.answers (clickEffect_range hl hr _) rfl, fun mode hmode => ⟨fun hb => ?_,
      fun w1 w2 hb => ?_⟩⟩⟩
  · have heff := gateLimitEffect_cases m (s.removeHead rest)
    split
    · next hb => exact h.answers (heff.trans (if_pos hb)) rfl
    · next hb =>
      rw [if_neg hb] at heff
      split
      · next hr => exact h.answers (heff.trans (if_pos hr)) rfl
      · next hr => exact h.answers_with (heff.trans (if_neg hr)) rfl rfl
  · have heff := pedalCfgEffect_of_body hb (s.removeHead rest)
    split
    · next hz => exact h.answers (heff.trans (if_pos hz)) rfl
    · next hz => exact h.answers_with (heff.trans (if_neg hz)) rfl rfl
  · have heff := meterEffect_cases m (s.removeHead rest)
    split
    · next hb => exact h.answers (heff.trans (if_pos hb)) rfl
    · next hb =>
      rw [if_neg hb] at heff
      split
      · next hr => exact h.answers (heff.trans (if_pos hr)) rfl
      · next hr => exact h.answers_with (heff.trans (if_neg hr)) rfl rfl
  · exact h.answers_with (clickEffect_of_nil hb (clickModeOf_some hmode) _) rfl rfl
  · exact h.answers_with (clickEffect_of_levels hb (clickModeOf_some hmode) _) rfl rfl

/-! ### TUNER_MODE, TUNER_REF and TUNER_SOURCE -/

theorem tunerModeEffect_badLength {m : Message} (h : m.body ≠ []) (s : State) :
    tunerModeEffect m s = (s, ack .badLength) := by
  unfold tunerModeEffect
  split
  · contradiction
  · rfl

theorem tunerModeOf_none {n : Nat} (h : 1 < n) : tunerModeOf n = none := by
  unfold tunerModeOf
  split
  · omega
  · omega
  · rfl

theorem tunerModeOf_some {n : Nat} {mode : TunerMode}
    (h : (n = 0 ∧ mode = .off) ∨ (n = 1 ∧ mode = .background)) : tunerModeOf n = some mode := by
  rcases h with ⟨rfl, rfl⟩ | ⟨rfl, rfl⟩ <;> rfl

/-- The tuner state once the mode has been taken. -/
theorem State.followTuner_mode (s : State) (mode : TunerMode) :
    (s.mapTun fun t => { t with mode := mode }).followTuner s.tunerState =
      s.mapTun fun t =>
        if s.engaged = true ∨ mode = s.tun.mode then { t with mode := mode }
        else if mode = .off then { t.restartWindow with mode := .off, pacingDue := false }
        else { t.restartWindow with mode := .background, pacing := 0, pacingDue := false } := by
  have hafter : (s.mapTun fun t => { t with mode := mode }).engaged = s.engaged := rfl
  have hbefore : (s.mapTun fun t => { t with mode := mode }).tun.mode = mode := rfl
  unfold State.followTuner State.tunerState
  rw [hafter, hbefore]
  cases hengaged : s.engaged with
  | true => simp [State.mapTun]
  | false => cases mode <;> cases hm : s.tun.mode <;> simp [State.mapTun, Tun.restartWindow]

theorem tunerModeEffect_of_body {m : Message} {mode : TunerMode} (h : m.body = [])
    (hmode : tunerModeOf m.a0 = some mode) (s : State) :
    tunerModeEffect m s =
      (s.mapTun fun t =>
        if s.engaged = true ∨ mode = s.tun.mode then { t with mode := mode }
        else if mode = .off then { t.restartWindow with mode := .off, pacingDue := false }
        else { t.restartWindow with mode := .background, pacing := 0, pacingDue := false }, ack .ok) := by
  simp only [tunerModeEffect, h, hmode, State.followTuner_mode]

theorem tunerRefEffect_badLength {m : Message} (h : m.body.length ≠ 1) (s : State) :
    tunerRefEffect m s = (s, ack .badLength) := by
  unfold tunerRefEffect
  split
  · next hb => exact absurd (by rw [hb]; rfl) h
  · rfl

theorem tunerRefEffect_of_body {m : Message} {w : Word24} (h : m.body = [w]) (s : State) :
    tunerRefEffect m s = (s.mapTun (Tun.setReference (max 430 (min (bits 15 0 w) 450))), ack .ok) := by
  simp only [tunerRefEffect, h, Nat.min_comm]

theorem tunerSourceEffect_badLength {m : Message} (h : m.body ≠ []) (s : State) :
    tunerSourceEffect m s = (s, ack .badLength) := by
  unfold tunerSourceEffect
  split
  · contradiction
  · rfl

theorem tunerSettingOf_none {n : Nat} (h : 2 < n) : tunerSettingOf n = none := by
  unfold tunerSettingOf
  split
  · omega
  · omega
  · omega
  · rfl

theorem tunerSettingOf_some {n : Nat} {x : TunerSetting}
    (h : (n = 0 ∧ x = .a) ∨ (n = 1 ∧ x = .b) ∨ (n = 2 ∧ x = .follow)) : tunerSettingOf n = some x := by
  rcases h with ⟨rfl, rfl⟩ | ⟨rfl, rfl⟩ | ⟨rfl, rfl⟩ <;> rfl

/-- Settles O24. -/
theorem tunerSettingsRestartTheWindow : Obligations.TunerSettingsRestartTheWindow := by
  intro m rest s fresh bad range ok
  refine ⟨fun h => ⟨fun hb => h.answers (tunerModeEffect_badLength hb _) rfl, fun hb hr => ?_,
      fun mode hmode hb => h.answers_with (tunerModeEffect_of_body hb (tunerModeOf_some hmode) _) rfl rfl⟩,
    fun h => ⟨fun hl => h.answers (tunerRefEffect_badLength hl _) rfl,
      fun w hb => h.answers_with (tunerRefEffect_of_body hb _) rfl rfl⟩,
    fun h => ⟨fun hb => h.answers (tunerSourceEffect_badLength hb _) rfl, fun hb hr => ?_,
      fun x hx hb => ?_⟩⟩
  · exact h.answers (by simp only [tunerModeEffect, hb, tunerModeOf_none hr]) rfl
  · exact h.answers (by simp only [tunerSourceEffect, hb, tunerSettingOf_none hr]) rfl
  · have heff : tunerSourceEffect m (s.removeHead rest) =
        ((s.removeHead rest).mapTun (Tun.setSource x), ack .ok) := by
      simp only [tunerSourceEffect, hb, tunerSettingOf_some hx]
    exact h.answers_with heff rfl rfl

/-! ### RESTART (R44) -/

theorem restartEngineEffect_cases (m : Message) (s : State) :
    restartEngineEffect m s =
      if m.body ≠ [] then (s, ack .badLength) else if m.a0 ≠ 0 then (s, ack .range)
      else ((s.mapCch Cch.emptyReplies).restartEngine, ack .ok) := by
  unfold restartEngineEffect
  split
  · next h => simp [h]
  · next h => exact (if_pos h).symm

theorem restartAllEffect_cases (m : Message) (s : State) :
    restartAllEffect m s =
      if m.body ≠ [] then (s, ack .badLength)
      else ((s.mapCch Cch.emptyReplies).restartAll.mapCch fun c =>
        { c with counters := Counters.zero, dropped := false }, ack .ok) := by
  unfold restartAllEffect
  split
  · next h => simp [h]
  · next h => exact (if_pos h).symm

theorem Tun.restartEngine_eq (s : State) :
    s.tun.restartEngine (s.liveScene.isSome && s.tun.source == .follow) =
      match s.tun.mode with
      | .off => { s.tun.restartWindow with pacing := 0, pacingDue := false }
      | .background =>
        if s.liveScene ≠ none ∧ s.tun.source = .follow then s.tun.restartWindow else s.tun := by
  unfold Tun.restartEngine
  cases s.tun.mode with
  | off => rfl
  | background => simp [Option.isSome_iff_ne_none]

/-- Settles O5, by the scope. -/
theorem restartResetsByScope : Obligations.RestartResetsByScope := by
  intro m rest s done t cch csq sce switches
  refine ⟨fun h => ?_, fun h => ?_⟩
  · have heff := restartEngineEffect_cases m (s.removeHead rest)
    split
    · next hb => exact h.answers (heff.trans (if_pos hb)) rfl
    · next hb =>
      rw [if_neg hb] at heff
      split
      · next hr => exact h.answers (heff.trans (if_pos hr)) rfl
      · next hr =>
        refine (h.run restartEngineEffect).trans (congrArg _ ?_)
        rw [heff, if_neg hr, State.reply_quiet (by rfl) _ _ rfl]
        apply State.eq_of_blocks
        case cch => exact congrArg (fun o => { cch with outbox := o }) h.settled.reported.symm
        case tun => exact Tun.restartEngine_eq s
        all_goals rfl
  · have heff := restartAllEffect_cases m (s.removeHead rest)
    split
    · next hb => exact h.answers (heff.trans (if_pos hb)) rfl
    · next hb =>
      rw [if_neg hb] at heff
      refine (h.run restartAllEffect).trans (congrArg _ ?_)
      rw [heff, State.reply_quiet (by rfl) _ _ rfl]
      apply State.eq_of_blocks
      case cch =>
        exact congrArg (fun o => { cch with counters := Counters.zero, dropped := false, outbox := o })
          h.settled.reported.symm
      all_goals rfl

end Sys2Proof.Machine


/-! PROOF. ARM and DISARM (R124–R126, R132), SET_PARAM and TOGGLE_STAGE (R72, R86, R87). -/

namespace Sys2Proof.Machine

variable {s : State}

/-! ### The slot chosen for a new scene (R124, R125) -/

theorem mem_four (j : SlotNo) : j ∈ four := by
  revert j
  decide

/-- Of the four slots in number order those before one that is found come first. -/
theorem mem_of_four_append {as bs : List SlotNo} {i j : SlotNo} (h : four = as ++ i :: bs) (hj : j < i) :
    j ∈ as := by
  have hsorted : (as ++ i :: bs).Pairwise (· < ·) := h ▸ (by decide : four.Pairwise (· < ·))
  have hmem : j ∈ as ++ i :: bs := h ▸ mem_four j
  rcases List.mem_append.mp hmem with hmem | hmem
  · exact hmem
  · rcases List.mem_cons.mp hmem with rfl | hbs
    · exact absurd hj (lt_irrefl _)
    · have hlt := List.rel_of_pairwise_cons (List.pairwise_append.mp hsorted).2.1 hbs
      exact absurd hj (lt_asymm hlt)

/-- A slot that is found is the lowest-numbered of its kind. -/
theorem Stg.find_lowest {g : Stg} {p : StgSlot → Bool} {i : SlotNo} (h : g.find p = some i) (j : SlotNo)
    (hj : j < i) : p (g.slots.get j) = false := by
  obtain ⟨-, as, bs, hfour, has⟩ := List.find?_eq_some_iff_append.mp h
  simpa using has j (mem_of_four_append hfour hj)

theorem Stg.find_eq_none {g : Stg} {p : StgSlot → Bool} (h : g.find p = none) (j : SlotNo) :
    p (g.slots.get j) = false := by
  simpa using List.find?_eq_none.mp h j (mem_four j)

theorem StgSlot.evictable_iff (t : StgSlot) :
    t.evictable = true ↔ t.pinned = false ∧ t.cuePin = false ∧ t.demanded = false := by
  simp [StgSlot.evictable, and_assoc]

theorem Stg.choose_of_empty {g : Stg} {i : SlotNo} (h : g.find (fun t => t.state == .empty) = some i) :
    g.choose = some i := by
  simp [Stg.choose, h]

theorem Stg.choose_of_full {g : Stg} (h : g.find (fun t => t.state == .empty) = none) :
    g.choose = g.readyOrder.reverse.find? fun i => (g.slots.get i).evictable := by
  simp [Stg.choose, h]

theorem Stg.choose_some {g : Stg} {i : SlotNo} (h : g.choose = some i) :
    ((g.slots.get i).state = .empty ∧ ∀ j, j < i → ¬ (g.slots.get j).state = .empty) ∨
    ((∀ j, ¬ (g.slots.get j).state = .empty) ∧ (g.slots.get i).evictable = true ∧
      ∃ front back, g.readyOrder = front ++ i :: back ∧
        ∀ j ∈ back, ¬ (g.slots.get j).evictable = true) := by
  cases hf : g.find fun t => t.state == .empty with
  | some k =>
    rw [Stg.choose_of_empty hf] at h
    cases h
    exact .inl ⟨by simpa using Stg.find_some hf, fun j hj => by simpa using Stg.find_lowest hf j hj⟩
  | none =>
    rw [Stg.choose_of_full hf] at h
    obtain ⟨hi, back, front, horder, hback⟩ := List.find?_eq_some_iff_append.mp h
    refine .inr ⟨fun j => by simpa using Stg.find_eq_none hf j, hi, front.reverse, back.reverse, ?_,
      fun j hj => ?_⟩
    · have hrev := congrArg List.reverse horder
      simpa using hrev
    · simpa using hback j (List.mem_reverse.mp hj)

theorem Stg.choose_none {g : Stg} (h : g.choose = none) :
    (∀ j, ¬ (g.slots.get j).state = .empty) ∧
      ∀ j ∈ g.readyOrder, ¬ (g.slots.get j).evictable = true := by
  cases hf : g.find fun t => t.state == .empty with
  | some k => exact absurd ((Stg.choose_of_empty hf).symm.trans h) (Option.some_ne_none k)
  | none =>
    rw [Stg.choose_of_full hf] at h
    exact ⟨fun j => by simpa using Stg.find_eq_none hf j,
      fun j hj => List.find?_eq_none.mp h j (List.mem_reverse.mpr hj)⟩

/-! ### Arm requests (R124) -/

theorem State.armRequest_invalid {a : ArmRequest} (h : s.tbm.sceneValid a.scene = false) :
    s.armRequest a = (s, .notPresent) := by
  simp [State.armRequest, h]

theorem State.armRequest_held {a : ArmRequest} (h : s.tbm.sceneValid a.scene = true) {i : SlotNo}
    (hi : s.stg.holding a.scene = some i) :
    s.armRequest a = (s.setSlot i (·.flagged a),
      if (s.stg.slots.get i).state = .live ∨ (s.stg.slots.get i).state = .fading then .already else .ok) := by
  simp [State.armRequest, h, hi]

theorem State.armRequest_busy {a : ArmRequest} (h : s.tbm.sceneValid a.scene = true)
    (hh : s.stg.holding a.scene = none) (hc : s.stg.choose = none) : s.armRequest a = (s, .busy) := by
  simp [State.armRequest, h, hh, hc]

theorem State.armRequest_taken {a : ArmRequest} (h : s.tbm.sceneValid a.scene = true)
    (hh : s.stg.holding a.scene = none) {i : SlotNo} (hc : s.stg.choose = some i) :
    s.armRequest a = (s.queueSlot i a, .accepted) := by
  simp [State.armRequest, h, hh, hc]

@[simp] theorem upd_upd {α : Type} {n : Nat} (v : Vector α n) (i : Fin n) (x y : α) :
    upd (upd v i x) i y = upd v i y := by
  simp [upd]

/-- The slots behind a slot taken for a request. -/
theorem State.queueSlot_eq (i : SlotNo) (a : ArmRequest) (s : State) :
    s.queueSlot i a = { s with stg :=
      { slots := upd s.stg.slots i
          { state := .queued, scene := some a.scene, pinned := a.pin, cuePin := a.cuePin
            demanded := a.demand, remaining := 0, origin := a.origin, tag := a.tag, image := none
            fresh := true }
        armQueue := s.stg.armQueue.filter (· ≠ i) ++ [i]
        readyOrder := s.stg.readyOrder.filter (· ≠ i)
        loaderWaits := s.stg.loaderWaits } } := by
  unfold State.queueSlot State.emptySlot
  simp only [State.mapStg, filter_bne_eq, upd_upd]
  rfl

theorem State.setSlot_eq (i : SlotNo) (f : StgSlot → StgSlot) (s : State) :
    s.setSlot i f = { s with stg := { s.stg with slots := upd s.stg.slots i (f (s.stg.slots.get i)) } } := rfl

/-! ### ARM (R126) -/

theorem armEffect_badLength {m : Message} (h : m.body ≠ []) (s : State) :
    armEffect m s = (s, ack .badLength) := by
  unfold armEffect
  split
  · contradiction
  · rfl

/-- The request of an ARM that names scene `n`. -/
theorem armEffect_of_body {m : Message} (h : m.body = []) {n : SceneNo} (hn : n.val = m.a0 % 128)
    (s : State) :
    armEffect m s = answer (s.armRequest
      { scene := n, pin := decide (m.a0 / 128 % 2 = 1), cuePin := false, demand := false
        origin := .command, tag := m.tag }) := by
  have hscene : (⟨m.a0 % 128, Nat.mod_lt _ (by decide)⟩ : SceneNo) = n := Fin.ext hn.symm
  simp only [armEffect, h, armOf, hscene, Bool.beq_eq_decide_eq]

/-- Settles O11: the choice by the slots found, the request by its four cases. -/
theorem armRequestTakesASlot : Obligations.ArmRequestTakesASlot := by
  refine ⟨fun g => ?_, fun m rest s h => ⟨fun hb => h.answers (armEffect_badLength hb _) rfl,
    fun n hb hn => ?_⟩⟩
  · simp only [← StgSlot.evictable_iff]
    exact ⟨fun i => Stg.choose_some, Stg.choose_none⟩
  · have heff := armEffect_of_body hb hn (s.removeHead rest)
    refine ⟨fun hv => ?_, fun hv i hi => ?_, fun hv hh hc => ?_, fun hv hh i hc => ?_⟩
    · exact h.answers (heff.trans (congrArg answer (State.armRequest_invalid hv))) rfl
    · have hheld := heff.trans (congrArg answer (State.armRequest_held (by exact hv) (by exact hi)))
      refine (h.answers_with hheld rfl rfl).trans ?_
      simp only [StgSlot.flagged, Bool.or_false]
      rfl
    · exact h.answers (heff.trans (congrArg answer
        (State.armRequest_busy (by exact hv) (by exact hh) (by exact hc)))) rfl
    · have htaken := heff.trans (congrArg answer (State.armRequest_taken (by exact hv) (by exact hh) (by exact hc)))
      rw [State.queueSlot_eq] at htaken
      exact h.answers_with htaken rfl rfl

/-! ### DISARM (R132) -/

/-- A message that is answered, changes blocks other than the channel and raises reports. -/
theorem Takes.answers_reporting {row : MessageRow} {m : Message} {rest : List Message}
    {eff : Message → State → State × Reply} (h : Takes row m rest s) {t : State} {r : Reply}
    {rs : List Record} (heff : eff m (s.removeHead rest) = (t, r))
    (hcch : t.cch = { (s.removeHead rest).cch with outbox := rs }) (hr : r.kind.cls = 2) :
    takeMessageRow row eff s =
      .next (State.reporting rs { t with cch := s.cch.answered rest (r.record m.tag) }) := by
  rw [h.run eff, heff, State.reply_eq m t r hr, hcch]
  refine congrArg Host.Outcome.next ?_
  exact congrArg (fun o => State.reporting rs { t with cch := { (s.removeHead rest).cch with
    outbox := o, class2 := s.cch.class2 ++ [r.record m.tag] } }) h.settled.reported.symm

theorem disarmEffect_badLength {m : Message} (h : m.body.length ≠ 1) (s : State) :
    disarmEffect m s = (s, ack .badLength) := by
  unfold disarmEffect
  split
  · next hb => exact absurd (by rw [hb]; rfl) h
  · rfl

theorem disarmTarget_outOfRange {w : Word24}
    (h : 2 ≤ bits 23 16 w ∨ (bits 23 16 w = 0 ∧ 128 ≤ bits 7 0 w) ∨ (bits 23 16 w = 1 ∧ 4 ≤ bits 7 0 w)) :
    disarmTarget w = .outOfRange := by
  unfold disarmTarget
  split
  · next hm => rw [dif_neg (by omega)]
  · next hm => rw [dif_neg (by omega)]
  · rfl

theorem disarmTarget_scene {w : Word24} {n : SceneNo} (hm : bits 23 16 w = 0) (hn : n.val = bits 7 0 w) :
    disarmTarget w = .scene n := by
  unfold disarmTarget
  split
  · rw [dif_pos (hn ▸ n.isLt)]
    exact congrArg _ (Fin.ext hn.symm)
  · omega
  · next hzero _ => exact absurd hm hzero

theorem disarmTarget_slot {w : Word24} {i : SlotNo} (hm : bits 23 16 w = 1) (hi : i.val = bits 7 0 w) :
    disarmTarget w = .slot i := by
  unfold disarmTarget
  split
  · omega
  · rw [dif_pos (hi ▸ i.isLt)]
    exact congrArg _ (Fin.ext hi.symm)
  · next h => exact absurd hm h

theorem disarmEffect_outOfRange {m : Message} {w : Word24} (h : m.body = [w])
    (hw : disarmTarget w = .outOfRange) (s : State) : disarmEffect m s = (s, ack .range) := by
  simp only [disarmEffect, h, hw]

/-- A DISARM names a slot by its number, or by the scene that it holds. -/
theorem disarmEffect_of_slot {m : Message} {w : Word24} {i : SlotNo} (h : m.body = [w])
    (hi : (∃ n : SceneNo, bits 23 16 w = 0 ∧ n.val = bits 7 0 w ∧ s.stg.holding n = some i) ∨
      (bits 23 16 w = 1 ∧ i.val = bits 7 0 w)) : disarmEffect m s = s.disarm i := by
  rcases hi with ⟨n, hm, hn, hh⟩ | ⟨hm, hi⟩
  · simp only [disarmEffect, h, disarmTarget_scene hm hn, hh]
  · simp only [disarmEffect, h, disarmTarget_slot hm hi]

theorem disarmEffect_absent {m : Message} {w : Word24} {n : SceneNo} (h : m.body = [w])
    (hm : bits 23 16 w = 0) (hn : n.val = bits 7 0 w) (hh : s.stg.holding n = none) :
    disarmEffect m s = (s, ack .notPresent) := by
  simp only [disarmEffect, h, disarmTarget_scene hm hn, hh]

/-- The slots once slot `i` has been disarmed. -/
def Stg.disarmed (g : Stg) (i : SlotNo) : Stg :=
  { slots := upd g.slots i StgSlot.vacant
    armQueue := g.armQueue.filter (· ≠ i)
    readyOrder := g.readyOrder.filter (· ≠ i)
    loaderWaits := g.loaderWaits || (g.slots.get i).state == .preparing }

/-- The report about a slot that was QUEUED or PREPARING. -/
def Stg.disarmReports (g : Stg) (i : SlotNo) : List Record :=
  if (g.slots.get i).state = .queued ∨ (g.slots.get i).state = .preparing then
    [armRecord i (g.slots.get i) .invalidated] else []

theorem State.armReport_eq (i : SlotNo) (t : StgSlot) (c : Code) (s : State) :
    s.armReport i t c = { s with cch := { s.cch with outbox := s.cch.outbox ++ [armRecord i t c] } } := rfl

theorem StgSlot.unreported_iff (t : StgSlot) :
    t.unreported = true ↔ t.state = .queued ∨ t.state = .preparing := by
  simp [StgSlot.unreported]

/-- The slot emptied, with its report and not yet the end of the pending switch. -/
def State.disarmedSlot (i : SlotNo) (s : State) : State :=
  { s with
    stg := s.stg.disarmed i
    cch := { s.cch with outbox := s.cch.outbox ++ s.stg.disarmReports i } }

theorem State.disarm_onAir {i : SlotNo}
    (h : (s.stg.slots.get i).state = .live ∨ (s.stg.slots.get i).state = .fading) :
    s.disarm i = (s, ack .inUse) := by
  have hempty : (s.stg.slots.get i).state ≠ .empty := by rcases h with h | h <;> simp [h]
  have hair : (s.stg.slots.get i).onAir = true := by simpa [StgSlot.onAir] using h
  exact (if_neg hempty).trans (if_pos hair)

/-- A DISARM of a slot that is neither EMPTY nor on air. -/
theorem State.disarm_staged {i : SlotNo} (h : (s.stg.slots.get i).state = .queued ∨
      (s.stg.slots.get i).state = .preparing ∨ (s.stg.slots.get i).state = .ready) :
    s.disarm i = (if (s.stg.slots.get i).demanded then (s.disarmedSlot i).refusePending .invalidated
      else s.disarmedSlot i, ack .ok) := by
  have hempty : (s.stg.slots.get i).state ≠ .empty := by
    rcases h with h | h | h <;> simp [h]
  have hair : (s.stg.slots.get i).onAir = false := by
    rcases h with h | h | h <;> simp [StgSlot.onAir, h]
  have hslot : (s.emptySlot i).mapStg (fun g =>
      { g with loaderWaits := g.loaderWaits || (s.stg.slots.get i).state == .preparing }) =
        { s with stg := s.stg.disarmed i } := by
    simp only [State.emptySlot, State.mapStg, filter_bne_eq]
    rfl
  have hreport : (if (s.stg.slots.get i).unreported then
      State.armReport i (s.stg.slots.get i) .invalidated { s with stg := s.stg.disarmed i }
        else { s with stg := s.stg.disarmed i }) = s.disarmedSlot i := by
    simp only [StgSlot.unreported_iff, State.disarmedSlot, Stg.disarmReports, State.armReport_eq]
    split
    · rfl
    · rw [List.append_nil]
  unfold State.disarm
  dsimp only
  rw [if_neg hempty, if_neg (by simp [hair]), hslot, hreport]

/-- DISARM leaves the destination as it is. -/
theorem State.disarmedSlot_destination {i : SlotNo}
    (h : (s.stg.slots.get i).state ≠ .live ∧ (s.stg.slots.get i).state ≠ .fading) :
    (s.disarmedSlot i).destination = s.destination :=
  (State.destination_emptySlot h : (s.emptySlot i).destination = s.destination)

theorem State.SlotsLegal.alone (h : s.SlotsLegal) (i : SlotNo) : s.stg.alone i :=
  fun j n hi hj => h.oneSlotPerScene j i n hj hi

/-- Settles O12: the checks, and the slot emptied with or without a pending switch that waited on it. -/
theorem disarmEmptiesTheSlot : Obligations.DisarmEmptiesTheSlot := by
  intro m rest s h
  refine ⟨fun hl => h.answers (disarmEffect_badLength hl _) rfl, fun w hb => ⟨fun hr => ?_,
    fun n hm hn hh => ?_, fun i hi => ⟨fun ht => ?_, fun ht => ?_, fun ht => ⟨fun hd => ?_,
      fun hd hlegal p n hp hn htarget => ?_⟩⟩⟩⟩
  · exact h.answers (disarmEffect_outOfRange hb (disarmTarget_outOfRange hr) _) rfl
  · exact h.answers (disarmEffect_absent (s := s.removeHead rest) hb hm hn hh) rfl
  · exact h.answers ((disarmEffect_of_slot (s := s.removeHead rest) hb hi).trans (if_pos ht)) rfl
  · exact h.answers ((disarmEffect_of_slot (s := s.removeHead rest) hb hi).trans
      (State.disarm_onAir (s := s.removeHead rest) ht)) rfl
  · have hstaged := (disarmEffect_of_slot (s := s.removeHead rest) hb hi).trans
      (State.disarm_staged (s := s.removeHead rest) ht)
    have hflag : ((s.removeHead rest).stg.slots.get i).demanded = false := hd
    rw [if_neg (Bool.eq_false_iff.mp hflag)] at hstaged
    exact h.answers_reporting hstaged (congrArg (fun o => { (s.removeHead rest).cch with
      outbox := o ++ s.stg.disarmReports i }) h.settled.reported) rfl
  · have hstaged := (disarmEffect_of_slot (s := s.removeHead rest) hb hi).trans
      (State.disarm_staged (s := s.removeHead rest) ht)
    have hflag : ((s.removeHead rest).stg.slots.get i).demanded = true := hd
    have hair : ((s.removeHead rest).stg.slots.get i).state ≠ .live ∧
        ((s.removeHead rest).stg.slots.get i).state ≠ .fading := by
      rcases ht with ht | ht | ht <;> simp [ht]
    have hgone : ((s.removeHead rest).disarmedSlot i).stg.holding n = none :=
      Stg.holding_emptied (hlegal.alone i) n hn _ _ _
    rw [if_pos hflag, State.refusePending_eq .invalidated (by exact hp) htarget hgone,
      State.disarmedSlot_destination hair] at hstaged
    exact h.answers_reporting hstaged (congrArg (fun o => { (s.removeHead rest).cch with
      outbox := o ++ s.stg.disarmReports i ++
        [switchRecord p.req .invalidated s.destination (some n) false false] }) h.settled.reported) rfl

/-! ### SET_PARAM and TOGGLE_STAGE (R86, R87) -/

theorem setParamEffect_badLength {m : Message} (h : m.body.length ≠ 2) (s : State) :
    setParamEffect m s = (s, ack .badLength) := by
  unfold setParamEffect
  split
  · next hb => exact absurd (by rw [hb]; rfl) h
  · rfl

theorem Sce.liveStage_none {e : Sce} {c : Copy} {n : Nat} (h : e.live = some c)
    (hn : n = 0 ∨ c.stages.length < n) : e.liveStage n = none := by
  simp only [Sce.liveStage, h, Option.bind_some]
  split
  · rfl
  · exact List.getElem?_eq_none (by omega)

theorem Sce.liveStage_some {e : Sce} {c : Copy} {n : Nat} {st : Stage} (h : e.live = some c) (hn : 1 ≤ n)
    (hst : c.stages[n - 1]? = some st) : e.liveStage n = some st := by
  simp only [Sce.liveStage, h, Option.bind_some]
  rw [if_neg (by omega), hst]

theorem setParamEffect_idle {m : Message} {w1 w2 : Word24} (hb : m.body = [w1, w2])
    (h : s.sce.live = none) : setParamEffect m s = (s, ack .notPresent) := by
  simp only [setParamEffect, hb, h]

theorem setParamEffect_noStage {m : Message} {w1 w2 : Word24} (hb : m.body = [w1, w2]) {c : Copy}
    (h : s.sce.live = some c) (hst : s.sce.liveStage m.a0 = none) :
    setParamEffect m s = (s, ack .range) := by
  simp only [setParamEffect, hb, h, hst]

theorem setParamEffect_of_stage {m : Message} {w1 w2 : Word24} (hb : m.body = [w1, w2]) {c : Copy}
    (h : s.sce.live = some c) {st : Stage} (hst : s.sce.liveStage m.a0 = some st) :
    setParamEffect m s =
      if st.kind.count ≤ bits 4 0 w1 ∨ paramClass st.kind (bits 4 0 w1) = .structural then (s, ack .range)
      else (s.setParam m.a0 (bits 4 0 w1) w2, ack .ok) := by
  simp only [setParamEffect, hb, h, hst]

/-- A stage of the LIVE copy edited, and the copy marked edited. -/
theorem Sce.mapCopy_edited {e : Sce} {c : Copy} {n : Nat} {st : Stage} (h : e.live = some c)
    (hst : c.stages[n - 1]? = some st) (f : Stage → Stage) :
    e.mapCopy .live (fun c => { c.mapStage n f with edited := true }) =
      { e with live := some { c with stages := c.stages.set (n - 1) (f st), edited := true } } := by
  simp only [Sce.mapCopy, h, Option.map_some, Copy.mapStage, List.modify_eq_set_getElem?, hst]
  rfl

theorem toggleStageEffect_badLength {m : Message} (h : m.body ≠ []) (s : State) :
    toggleStageEffect m s = (s, ack .badLength) := by
  unfold toggleStageEffect
  split
  · contradiction
  · rfl

theorem toggleStageEffect_of_body {m : Message} (h : m.body = []) (s : State) :
    toggleStageEffect m s = answer (s.toggleStage m.a0) := by
  simp only [toggleStageEffect, h]

theorem State.toggleStage_idle (h : s.sce.live = none) (n : Nat) : s.toggleStage n = (s, .notPresent) := by
  simp only [State.toggleStage, h]

theorem State.toggleStage_noStage {c : Copy} (h : s.sce.live = some c) {n : Nat}
    (hst : s.sce.liveStage n = none) : s.toggleStage n = (s, .range) := by
  simp only [State.toggleStage, h, hst]

theorem State.toggleStage_of_stage {c : Copy} (h : s.sce.live = some c) {n : Nat} {st : Stage}
    (hn : 1 ≤ n) (hst : c.stages[n - 1]? = some st) :
    s.toggleStage n = ({ s with sce := { s.sce with live := some { c with
      stages := c.stages.set (n - 1) { st with enabled := !st.enabled }, edited := true } } }, .ok) := by
  simp only [State.toggleStage, h, Sce.liveStage_some h hn hst, State.mapSce, Sce.mapCopy_edited h hst]

theorem State.setParam_eq {c : Copy} (h : s.sce.live = some c) {n : Nat} {st : Stage}
    (hst : c.stages[n - 1]? = some st) (i : Nat) (w : Word24) :
    s.setParam n i w = { s with sce := { s.sce with live := some { c with
      stages := c.stages.set (n - 1) { st with params := st.params.modify i (Param.assign st.kind i w) }
      edited := true } } } := by
  simp only [State.setParam, State.mapSce, Sce.mapCopy_edited h hst]

/-! ### The parameters (R72) -/

/-- The range of parameter `i` of a kind and the way it takes effect. -/
def paramRow (k : StageKind) (i : Nat) : Int × Int × ParamClass :=
  ((paramRange k i).1, (paramRange k i).2, paramClass k i)

theorem paramSigned_eq (k : StageKind) : ∀ i < k.count, paramSigned k i = decide ((paramRange k i).1 < 0) := by
  cases k <;> decide

theorem paramRow_spec {k : StageKind} {rows : List (Int × Int × ParamClass)}
    (h : rows = (List.range k.count).map (paramRow k)) :
    rows.length = k.count ∧
    ∀ (i : Nat) (lo hi : Int) (how : ParamClass), rows[i]? = some (lo, hi, how) →
      paramClass k i = how ∧ (∀ v, paramClamp k i v = max lo (min hi v)) ∧
      ∀ w : Word24, paramValue k i w = if lo < 0 then w.toInt else w.toNat := by
  subst h
  refine ⟨by simp, fun i lo hi how hrow => ?_⟩
  obtain ⟨hlen, hget⟩ := List.getElem?_eq_some_iff.mp hrow
  have hi' : i < k.count := by simpa using hlen
  have hval : paramRow k i = (lo, hi, how) := by simpa using hget
  obtain ⟨hlo, hhi, hhow⟩ : (paramRange k i).1 = lo ∧ (paramRange k i).2 = hi ∧ paramClass k i = how := by
    simpa [paramRow] using hval
  refine ⟨hhow, fun v => ?_, fun w => ?_⟩
  · rw [paramClamp, clampTo, hlo, hhi, min_comm]
  · rw [paramValue, paramSigned_eq k i hi', hlo]
    simp

/-- Settles O18: the checks of each command, and the rows of the parameters kind by kind. -/
theorem stageEditsActOnTheLiveCopy : Obligations.StageEditsActOnTheLiveCopy := by
  refine ⟨fun m rest s => ⟨fun h => ⟨fun hl => h.answers (setParamEffect_badLength hl _) rfl,
    fun w1 w2 hb => ⟨fun hlive => ?_, fun c hlive => ⟨fun hn => ?_, fun st hn hst =>
      ⟨fun hr => ?_, fun hi hs => ?_⟩⟩⟩⟩, fun h => ⟨fun hb => h.answers (toggleStageEffect_badLength hb _) rfl,
        fun hb hlive => ?_, fun c hb hlive => ⟨fun hn => ?_, fun st hn hst => ?_⟩⟩⟩, fun k => ?_⟩
  · exact h.answers (setParamEffect_idle hb (by exact hlive)) rfl
  · exact h.answers (setParamEffect_noStage hb (by exact hlive) (Sce.liveStage_none (by exact hlive) hn)) rfl
  · exact h.answers ((setParamEffect_of_stage hb (by exact hlive)
      (Sce.liveStage_some (by exact hlive) hn hst)).trans (if_pos hr)) rfl
  · have heff := setParamEffect_of_stage (s := s.removeHead rest) hb hlive (Sce.liveStage_some hlive hn hst)
    rw [if_neg (by simp [hs, not_le.mpr hi]), State.setParam_eq (s := s.removeHead rest) hlive hst] at heff
    exact h.answers_with heff rfl rfl
  · exact h.answers ((toggleStageEffect_of_body hb _).trans
      (congrArg answer (State.toggleStage_idle (by exact hlive) _))) rfl
  · exact h.answers ((toggleStageEffect_of_body hb _).trans (congrArg answer
      (State.toggleStage_noStage (by exact hlive) (Sce.liveStage_none (by exact hlive) hn)))) rfl
  · exact h.answers_with ((toggleStageEffect_of_body hb _).trans (congrArg answer
      (State.toggleStage_of_stage (s := s.removeHead rest) hlive hn hst))) rfl rfl
  · exact paramRow_spec (by cases k <;> rfl)

end Sys2Proof.Machine


/-! PROOF. The table commands: LOAD, READ, ERASE, COMMIT and STORE (R50–R64, R90). -/

namespace Sys2Proof.Machine

variable {s : State}

/-! ### VALID flags (R46) -/

/-- A kind with VALID flags, and one of its entries. -/
theorem Tbm.valid_setValid_same {tb : Tbm} {k : TableKind} {idx : Nat} (hk : k.hasValid = true)
    (h : idx < k.entries) (v : Bool) : (tb.setValid k idx v).valid k idx = v := by
  cases k <;> simp_all [TableKind.hasValid, TableKind.entries, Tbm.valid, Tbm.setValid]

theorem Tbm.valid_of_views {tb : Tbm} {k : TableKind} {idx : Nat} (hk : k.hasValid = false) :
    tb.valid k idx = false := by
  cases k <;> simp_all [TableKind.hasValid, Tbm.valid]

theorem Tbm.valid_setValid_false {tb : Tbm} {k : TableKind} {idx : Nat} (h : idx < k.entries) :
    (tb.setValid k idx false).valid k idx = false := by
  cases hk : k.hasValid with
  | true => exact Tbm.valid_setValid_same hk h false
  | false => exact Tbm.valid_of_views hk

/-- One flag written leaves every other. -/
theorem Tbm.valid_setValid_other {tb : Tbm} {k k' : TableKind} {idx j : Nat} (h : k' ≠ k ∨ j ≠ idx)
    (v : Bool) : (tb.setValid k idx v).valid k' j = tb.valid k' j := by
  unfold Tbm.setValid
  split
  case h_1 | h_2 | h_3 =>
    split
    · cases k' <;> simp_all [Tbm.valid, upd_get, Ne.symm]
    · rfl
  all_goals rfl

theorem upd_get_self {α : Type} {n : Nat} (v : Vector α n) (i : Fin n) : upd v i (v.get i) = v :=
  Vector.set_getElem_self i.isLt

/-- A flag that stands as it is written. -/
theorem Tbm.setValid_of_valid {tb : Tbm} {k : TableKind} {idx : Nat} (h : tb.valid k idx = true) :
    tb.setValid k idx true = tb := by
  cases k <;> simp only [Tbm.valid, Bool.false_eq_true] at h
  all_goals
    split at h
    · next hi =>
        rw [Tbm.setValid, dif_pos hi, ← h, upd_get_self]
    · exact absurd h Bool.false_ne_true

@[simp] theorem Tbm.writeEntry_valid (tb : Tbm) (k k' : TableKind) (i j o : Nat) (ws : List Word24) :
    (tb.writeEntry k i o ws).valid k' j = tb.valid k' j := rfl

theorem entryAddr_add (k : TableKind) (idx off i : Nat) :
    entryAddr k idx (off + i) = entryAddr k idx off + i := by
  unfold entryAddr
  omega

/-- Words written into an entry of a canonical memory stand there. -/
theorem Tbm.writeEntry_read_same {tb : Tbm} (w : tb.mem.wf = true) (k : TableKind) (idx off : Nat)
    (ws : List Word24) {i : Nat} (hi : i < ws.length) :
    (tb.writeEntry k idx off ws).mem.read (entryAddr k idx off + i) = ws.getD i 0 := by
  rw [Tbm.writeEntry_read w, if_pos ⟨by omega, by omega⟩, Nat.add_sub_cancel_left]

/-- Words written into an entry leave every other word. -/
theorem Tbm.writeEntry_read_other {tb : Tbm} (w : tb.mem.wf = true) (k : TableKind) (idx off : Nat)
    (ws : List Word24) {a : Nat}
    (ha : a < entryAddr k idx off ∨ entryAddr k idx off + ws.length ≤ a) :
    (tb.writeEntry k idx off ws).mem.read a = tb.mem.read a := by
  rw [Tbm.writeEntry_read w, if_neg (by omega)]

/-! ### What a write withdraws (R64) -/

theorem State.removePending_crossfade (c : Code) (frm : Option SceneNo) (s : State) :
    (s.removePending c frm).swu.crossfade = s.swu.crossfade := by
  rw [State.removePending_eq]

theorem State.withdraw_apart (i : SlotNo) (s : State) :
    (s.withdraw i).swu.crossfade = s.swu.crossfade ∧ (s.withdraw i).cch.fifo = s.cch.fifo := by
  unfold State.withdraw
  dsimp only
  split <;> split <;>
    simp [State.refusePending, State.removePending_crossfade, State.removePending_fifo,
      State.armReport, State.raise]

theorem State.invalidate_apart (k : TableKind) (idx : Nat) (s : State) :
    (s.invalidate k idx).swu.crossfade = s.swu.crossfade ∧
      (s.invalidate k idx).cch.fifo = s.cch.fifo := by
  unfold State.invalidate forEach
  induction four generalizing s with
  | nil => exact ⟨rfl, rfl⟩
  | cons i is ih =>
    rw [List.foldl_cons]
    obtain ⟨hcross, hfifo⟩ := ih (if s.tbm.makesStale k idx (s.stg.slots.get i) then s.withdraw i else s)
    rw [hcross, hfifo]
    split
    · exact State.withdraw_apart i s
    · exact ⟨rfl, rfl⟩

/-- A write that makes no staged copy stale withdraws none. -/
theorem State.invalidate_of_fresh {k : TableKind} {idx : Nat}
    (h : ∀ i, s.tbm.makesStale k idx (s.stg.slots.get i) = false) : s.invalidate k idx = s := by
  unfold State.invalidate forEach
  induction four with
  | nil => rfl
  | cons i is ih => simpa [h i] using ih

/-- The state behind a table command that withdraws what its entry makes stale, writes the tables by `f`
and answers OK. -/
def State.tableWritten (m : Message) (rest : List Message) (k : TableKind) (idx : Nat) (f : Tbm → Tbm)
    (s : State) : State :=
  State.reply m (((s.removeHead rest).invalidate k idx).mapTbm f, ack .ok)

theorem State.tableWritten_frame (m : Message) (rest : List Message) (k : TableKind) (idx : Nat)
    (f : Tbm → Tbm) (s : State) :
    let t := s.tableWritten m rest k idx f
    t.tbm = f s.tbm ∧ t.swu.stack = s.swu.stack ∧ t.swu.crossfade = s.swu.crossfade ∧
      t.cch.fifo = rest ∧ t.sli = s.sli ∧ t.sce = s.sce ∧ t.dlu = s.dlu ∧ t.pmn = s.pmn ∧
      t.tck = s.tck ∧ t.csq = s.csq ∧ t.tun = s.tun := by
  obtain ⟨hcross, hfifo⟩ := (s.removeHead rest).invalidate_apart k idx
  simp only [State.tableWritten, State.reply_ack_eq, State.reporting_frame, State.reporting_fifo]
  refine ⟨?_, ?_, hcross, ?_, ?_⟩
  · simp [State.removeHead_eq]
  · simp [State.removeHead_eq]
  · exact hfifo
  · simp [State.removeHead_eq]

/-- A write that makes no staged copy stale changes the table alone. -/
theorem State.tableWritten_fresh (hs : s.Settled) (m : Message) (rest : List Message) {k : TableKind}
    {idx : Nat} (f : Tbm → Tbm) (h : ∀ i, s.tbm.makesStale k idx (s.stg.slots.get i) = false) :
    s.tableWritten m rest k idx f = { s.answered m rest (ack .ok) with tbm := f s.tbm } := by
  rw [State.tableWritten, State.invalidate_of_fresh (by exact h),
    State.reply_of_cch (t := (s.removeHead rest).mapTbm f) hs rfl m _ rfl]
  rfl

/-- In legal slots the withdrawn copies follow the answer in slot-number order. -/
theorem State.tableWritten_legal (hs : s.Settled) (hl : s.SlotsLegal) (m : Message) (rest : List Message)
    (k : TableKind) (idx : Nat) (f : Tbm → Tbm) :
    s.tableWritten m rest k idx f =
      s.withdrawingStale k idx { s.answered m rest (ack .ok) with tbm := f s.tbm } :=
  State.reply_invalidate hs hl m rest k idx f

/-! ### LOAD (R58) -/

theorem loadEffect_badLength {m : Message} (h : m.body.length < 2 ∨ 61 < m.body.length) (s : State) :
    loadEffect m s = (s, ack .badLength) := by
  unfold loadEffect
  split
  · next w d ds hb =>
    rw [hb] at h
    simp only [List.length_cons] at h
    rw [if_pos (by omega)]
  · rfl

theorem loadEffect_noKind {m : Message} {w : Word24} {ws : List Word24} (h : m.body = w :: ws)
    (hne : ws ≠ []) (hlen : ws.length ≤ 60) (hk : writableKind m.a0 = none) (s : State) :
    loadEffect m s = (s, ack .range) := by
  obtain ⟨d, ds, rfl⟩ := List.exists_cons_of_ne_nil hne
  rw [List.length_cons] at hlen
  simp only [loadEffect, h, hk]
  rw [if_neg (by omega)]

theorem loadEffect_of_body {m : Message} {w : Word24} {ws : List Word24} (h : m.body = w :: ws)
    (hne : ws ≠ []) (hlen : ws.length ≤ 60) {k : TableKind} (hk : writableKind m.a0 = some k)
    (s : State) : loadEffect m s = s.load k (entryIndex w) (entryOffset w) ws := by
  obtain ⟨d, ds, rfl⟩ := List.exists_cons_of_ne_nil hne
  rw [List.length_cons] at hlen
  simp only [loadEffect, h, hk]
  rw [if_neg (by omega)]

/-- Checks 3 to 5 of R58 in the positive. -/
theorem load_fits_iff {k : TableKind} {idx n off : Nat} {r : Bool} :
    ¬ (k.entries ≤ idx ∨ k.words < off + n ∨ r = false) ↔
      idx < k.entries ∧ off + n ≤ k.words ∧ r = true := by
  simp only [not_or, not_le, not_lt, Bool.not_eq_false]

theorem State.load_range {k : TableKind} {idx off : Nat} {ws : List Word24}
    (h : ¬ (idx < k.entries ∧ off + ws.length ≤ k.words ∧
      entryInRange k (s.tbm.afterWrite k idx off ws) = true)) :
    s.load k idx off ws = (s, ack .range) := by
  rw [State.load, if_pos (not_not.mp fun hn => h (load_fits_iff.mp hn))]

theorem State.load_fits {k : TableKind} {idx off : Nat} {ws : List Word24}
    (h : idx < k.entries ∧ off + ws.length ≤ k.words ∧
      entryInRange k (s.tbm.afterWrite k idx off ws) = true) :
    s.load k idx off ws =
      if s.inUse k idx then (s, ack .inUse)
      else ((s.invalidate k idx).mapTbm fun tb => tb.loadWords k idx off ws, ack .ok) := by
  rw [State.load, if_neg (load_fits_iff.mpr h)]

/-- What a LOAD that passes its checks leaves. -/
theorem State.tableWritten_loads (s : State) (hs : s.Settled) (m : Message) (rest : List Message)
    {k : TableKind} {idx : Nat} (hidx : idx < k.entries) (off : Nat) (ws : List Word24) :
    let t := s.tableWritten m rest k idx fun tb => tb.loadWords k idx off ws
    (s.MemoryCanonical →
      (∀ i, i < ws.length → t.tbm.mem.read (entryAddr k idx off + i) = ws.getD i 0) ∧
      (∀ a, a < entryAddr k idx off ∨ entryAddr k idx off + ws.length ≤ a →
        t.tbm.mem.read a = s.tbm.mem.read a)) ∧
    t.tbm.valid k idx = false ∧
    (∀ k' j, k' ≠ k ∨ j ≠ idx → t.tbm.valid k' j = s.tbm.valid k' j) ∧
    t.tbm.gateLimit = s.tbm.gateLimit ∧ t.swu.stack = s.swu.stack ∧
    t.swu.crossfade = s.swu.crossfade ∧ t.cch.fifo = rest ∧ t.sli = s.sli ∧
    t.sce = s.sce ∧ t.dlu = s.dlu ∧ t.pmn = s.pmn ∧ t.tck = s.tck ∧ t.csq = s.csq ∧
    t.tun = s.tun ∧
    ((∀ i, s.tbm.makesStale k idx (s.stg.slots.get i) = false) →
      t = { s.answered m rest (ack .ok) with tbm := t.tbm }) ∧
    (s.SlotsLegal →
      t = s.withdrawingStale k idx { s.answered m rest (ack .ok) with tbm := t.tbm }) := by
  intro t
  obtain ⟨htbm, hstack, hcross, hfifo, hsli, hsce, hdlu, hpmn, htck, hcsq, htun⟩ :=
    s.tableWritten_frame m rest k idx fun tb => tb.loadWords k idx off ws
  have hmem : t.tbm.mem = (s.tbm.writeEntry k idx off ws).mem := by
    rw [htbm]
    exact Tbm.setValid_mem ..
  refine ⟨fun w => ⟨fun i hi => ?_, fun a ha => ?_⟩, ?_, fun k' j hj => ?_, ?_, hstack, hcross, hfifo, hsli,
    hsce, hdlu, hpmn, htck, hcsq, htun, fun hfresh => ?_, fun hl => ?_⟩
  · rw [hmem]
    exact Tbm.writeEntry_read_same w k idx off ws hi
  · rw [hmem]
    exact Tbm.writeEntry_read_other w k idx off ws ha
  · rw [htbm]
    exact Tbm.valid_setValid_false hidx
  · rw [htbm]
    exact Tbm.valid_setValid_other hj false
  · rw [htbm]
    exact Tbm.setValid_gateLimit ..
  · rw [htbm]
    exact State.tableWritten_fresh hs m rest _ hfresh
  · rw [htbm]
    exact State.tableWritten_legal hs hl m rest k idx _

/-! ### Ranges of loaded words (R50–R53) -/

theorem entryInRange_gate (word : Nat → Word24) :
    let kind := bits 18 16 (word 0)
    let a := bits 23 16 (word 1)
    entryInRange .gate word = true ↔
      1 ≤ bits 13 12 (word 0) ∧ bits 2 0 (word 0) ≤ 5 ∧
      (kind = 0 ∨ kind = 1 → bits 9 8 (word 0) ≤ 2 ∧ (a ≤ 127 ∨ a = 255)) ∧
      (kind = 4 → 1 ≤ a ∧ a ≤ 10) ∧ (kind = 5 → a ≤ 15 ∧ bits 15 8 (word 1) ≤ 4) ∧
      (kind = 6 → a ≤ 5) := by
  intro kind a
  have hkind : kind < 8 := Nat.mod_lt _ (by decide)
  simp only [entryInRange, Bool.and_eq_true, decide_eq_true_eq]
  change ((1 ≤ bits 13 12 (word 0) ∧ gateQuantizeFits (gateKindOf kind) _ = true) ∧ _) ∧
    gateArgsFit (gateKindOf kind) a _ = true ↔ _
  clear_value kind a
  interval_cases kind <;> simp [gateKindOf, gateQuantizeFits, gateArgsFit] <;> omega

theorem entryInRange_expmap (word : Nat → Word24) :
    entryInRange .expmap word = true ↔
      (bits 17 16 (word 0) = 1 ∨ bits 17 16 (word 0) = 2) ∧
      1 ≤ bits 11 8 (word 0) ∧ bits 11 8 (word 0) ≤ 10 ∧ bits 4 0 (word 0) ≤ 25 := by
  simp [entryInRange, and_assoc]

theorem entryInRange_cue (word : Nat → Word24) :
    entryInRange .cue word = true ↔
      (bits 23 16 (word 0) ≤ 127 ∨ bits 23 16 (word 0) = 255) ∧
      bits 11 0 (word 1) ≤ bits 23 12 (word 1) ∧
      (bits 15 0 (word 2) = 0 ∨ (2000 ≤ bits 15 0 (word 2) ∧ bits 15 0 (word 2) ≤ 24000)) := by
  simp [entryInRange, and_assoc, Nat.lt_succ_iff]

/-- Settles O6. -/
theorem loadWritesItsWords : Obligations.LoadWritesItsWords := by
  refine ⟨fun m rest s h => ⟨State.reply m (loadEffect m (s.removeHead rest)), h.run loadEffect, ?_, ?_⟩,
    fun word => ⟨entryInRange_gate word, by simp [entryInRange], entryInRange_expmap word,
      entryInRange_cue word, ?_⟩⟩
  · intro hlen
    rw [loadEffect_badLength hlen]
    exact State.reply_ack h.settled m rest _
  · intro w ws hb hne hlen
    refine ⟨fun hk => ?_, fun k hk => ?_⟩
    · rw [loadEffect_noKind hb hne hlen hk]
      exact State.reply_ack h.settled m rest _
    · rw [loadEffect_of_body hb hne hlen hk]
      refine ⟨fun hfits => ?_, fun hfits huse => ?_, fun hfits huse => ?_⟩
      · rw [State.load_range (s := s.removeHead rest) hfits]
        exact State.reply_ack h.settled m rest _
      · rw [State.load_fits (s := s.removeHead rest) hfits, if_pos (by exact huse)]
        exact State.reply_ack h.settled m rest _
      · rw [State.load_fits (s := s.removeHead rest) hfits,
          if_neg (by exact Bool.eq_false_iff.mp huse)]
        exact s.tableWritten_loads h.settled m rest hfits.1 _ _
  · rintro k (rfl | rfl | rfl | rfl) <;> rfl

/-! ### READ (R56, R57, R59) -/

theorem readEffect_badLength {m : Message} (h : m.body.length ≠ 2) (s : State) :
    readEffect m s = (s, ack .badLength) := by
  unfold readEffect
  split
  · next hb => exact absurd (by rw [hb]; rfl) h
  · rfl

theorem readEffect_noKind {m : Message} {w n : Word24} (h : m.body = [w, n]) (hk : kindOf m.a0 = none)
    (s : State) : readEffect m s = (s, ack .range) := by
  simp only [readEffect, h, hk]

theorem readEffect_of_body {m : Message} {w n : Word24} (h : m.body = [w, n]) {k : TableKind}
    (hk : kindOf m.a0 = some k) (s : State) :
    readEffect m s =
      if entryIndex w < k.entries ∧ readCount n ≠ 0 ∧ readCount n ≤ 60 ∧
          entryOffset w + readCount n ≤ k.words then
        (s, data (s.readWords k (entryIndex w) (entryOffset w) (readCount n)))
      else (s, ack .range) := by
  simp only [readEffect, h, hk]
  by_cases hfits : entryIndex w < k.entries ∧ readCount n ≠ 0 ∧ readCount n ≤ 60 ∧
      entryOffset w + readCount n ≤ k.words
  · rw [if_pos hfits, if_neg (by omega)]
  · rw [if_neg hfits, if_pos (by omega)]

theorem Mem.readAll_eq (mem : Mem) (a n : Nat) :
    mem.readAll a n = (List.range n).map fun i => mem.read (a + i) := by
  induction n generalizing a with
  | zero => rfl
  | succ n ih =>
    rw [Mem.readAll, ih, List.range_succ_eq_map, List.map_cons, List.map_map]
    refine congrArg₂ List.cons rfl (List.map_congr_left fun i _ => ?_)
    exact congrArg mem.read (by simp; omega)

theorem State.readWords_table {k : TableKind} (hk : k.isView = false) (idx off n : Nat) (s : State) :
    s.readWords k idx off n = (List.range n).map fun i => s.tbm.word k idx (off + i) := by
  have hword : ∀ i, s.tbm.word k idx (off + i) = s.tbm.mem.read (entryAddr k idx off + i) := fun i =>
    congrArg s.tbm.mem.read (entryAddr_add k idx off i)
  simp only [hword]
  rw [← Mem.readAll_eq]
  cases k <;> simp_all [TableKind.isView, State.readWords]

theorem StgSlot.viewWord_eq (t : StgSlot) :
    t.viewWord = payload (t.state.value * 2 ^ 21 + byteOf t.scene * 2 ^ 8 + (if t.pinned then 2 ^ 2 else 0)
      + (if t.cuePin then 2 else 0) + (if t.demanded then 1 else 0)) := by
  simp only [StgSlot.viewWord, Nat.shiftLeft_eq]
  rfl

theorem Line.viewWords_eq (l : Line) :
    l.viewWords = [payload (l.state.value * 2 ^ 22 + byteOf l.owner1 * 2 ^ 8 + byteOf l.owner2),
      payload l.current, payload l.target, payload (l.held.getD 0), payload l.position,
      payload l.feedback, payload l.wet, payload l.pan, if l.tail then 1 else 0,
      payload l.mem.length, payload l.quiet, payload l.age] := by
  have htail : payload (if l.tail then 1 else 0) = if l.tail then 1 else 0 := by
    cases l.tail <;> rfl
  simp only [Line.viewWords, Nat.shiftLeft_eq, htail]

theorem stackWord_some (e : StackEntry) :
    stackWord (some e) = payload (byteOf e.saved * 2 ^ 16 + e.reason.value * 2 ^ 8 + byteOf e.owner) := by
  simp only [stackWord, Nat.shiftLeft_eq]

/-- A READ of the one word of a SLOT view that passes its checks. -/
theorem State.readWords_slotView (i : Fin 4) {off n : Nat} (hn : n ≠ 0) (h : off + n ≤ 1) (s : State) :
    s.readWords .slotView i off n = [(s.stg.slots.get i).viewWord] := by
  obtain ⟨rfl, rfl⟩ : off = 0 ∧ n = 1 := by omega
  simp [State.readWords, i.isLt]

theorem State.readWords_lineView (i : Fin 4) (off n : Nat) (s : State) :
    s.readWords .lineView i off n = ((s.dlu.lines.get i).viewWords.drop off).take n := by
  simp [State.readWords, i.isLt]

/-- Settles O7. -/
theorem readReturnsTheWords : Obligations.ReadReturnsTheWords := by
  intro m rest s h slotWord lineWords entryWord stack stackView
  have hslot : ∀ t : StgSlot, t.viewWord = slotWord t := StgSlot.viewWord_eq
  have hline : ∀ l : Line, l.viewWords = lineWords l := Line.viewWords_eq
  have hentry : ∀ e, stackWord e = entryWord e
    | none => by decide
    | some e => stackWord_some e
  have hstack : stackWords stack = stackView := by simp only [stackWords, hentry, stackView]
  refine ⟨fun hlen => h.answers (readEffect_badLength hlen _) rfl, fun w n hb => ?_⟩
  intro count idx off
  refine ⟨fun hk => h.answers (readEffect_noKind hb hk _) rfl, fun k hk => ?_⟩
  intro fits
  have heff := readEffect_of_body hb hk (s.removeHead rest)
  refine ⟨fun hfits => h.answers (heff.trans (if_neg hfits)) rfl, fun hfits hview => ?_, fun hfits hview => ?_,
    fun i hi => ⟨fun hfits hview => ?_, fun hfits hview => ?_⟩⟩
  all_goals
    rw [if_pos hfits] at heff
  · rw [State.readWords_table hview] at heff
    exact h.answers heff rfl
  · subst hview
    rw [← hstack]
    exact h.answers heff rfl
  · subst hview
    rw [← hslot]
    rw [show entryIndex w = i.val from hi.symm,
      State.readWords_slotView i hfits.2.1 (by exact hfits.2.2.2)] at heff
    exact h.answers heff rfl
  · subst hview
    rw [← hline]
    rw [show entryIndex w = i.val from hi.symm, State.readWords_lineView] at heff
    exact h.answers heff rfl

/-! ### ERASE (R60) -/

theorem eraseEffect_badLength {m : Message} (h : m.body.length ≠ 1) (s : State) :
    eraseEffect m s = (s, ack .badLength) := by
  unfold eraseEffect
  split
  · next hb => exact absurd (by rw [hb]; rfl) h
  · rfl

theorem eraseEffect_noKind {m : Message} {w : Word24} (h : m.body = [w]) (hk : writableKind m.a0 = none)
    (s : State) : eraseEffect m s = (s, ack .range) := by
  simp only [eraseEffect, h, hk]

theorem eraseEffect_of_body {m : Message} {w : Word24} (h : m.body = [w]) {k : TableKind}
    (hk : writableKind m.a0 = some k) (s : State) :
    eraseEffect m s =
      if k.entries ≤ entryIndex w then (s, ack .range)
      else if s.inUse k (entryIndex w) then (s, ack .inUse)
      else ((s.invalidate k (entryIndex w)).mapTbm fun tb => tb.erase k (entryIndex w), ack .ok) := by
  simp only [eraseEffect, h, hk]

theorem clearBit_footmap (w : Word24) :
    clearBit 23 (clearBit 15 (clearBit 7 w)) = w &&& 0x7F7F7F#24 := by
  simp only [clearBit, BitVec.and_assoc]
  rfl

theorem Tbm.erase_flagged {k : TableKind} (hk : k.hasValid = true) (tb : Tbm) (idx : Nat) :
    tb.erase k idx = tb.setValid k idx false := by
  cases k <;> simp_all [TableKind.hasValid, Tbm.erase]

theorem Tbm.erase_present {k : TableKind} (hk : k = .gate ∨ k = .expmap ∨ k = .cuedir) (tb : Tbm)
    (idx : Nat) :
    (tb.erase k idx).mem = tb.mem.write (entryAddr k idx 0) (tb.word k idx 0 &&& 0x7FFFFF#24) := by
  rcases hk with rfl | rfl | rfl <;> rfl

theorem Tbm.erase_footmap (tb : Tbm) (idx : Nat) :
    (tb.erase .footmap idx).mem =
      tb.mem.write (entryAddr .footmap idx 0) (tb.word .footmap idx 0 &&& 0x7F7F7F#24) :=
  congrArg (tb.mem.write (entryAddr .footmap idx 0)) (clearBit_footmap _)

theorem Tbm.erase_cue (tb : Tbm) (idx : Nat) :
    (tb.erase .cue idx).mem =
      ((tb.mem.write (entryAddr .cue idx 0) (255#24 <<< 16)).write (entryAddr .cue idx 0 + 1) 0#24).write
        (entryAddr .cue idx 0 + 2) 0#24 := rfl

/-- Settles O8. -/
theorem eraseByKind : Obligations.EraseByKind := by
  intro m rest s h
  refine ⟨State.reply m (eraseEffect m (s.removeHead rest)), h.run eraseEffect, ?_, ?_⟩
  · intro hlen
    rw [eraseEffect_badLength hlen]
    exact State.reply_ack h.settled m rest _
  · intro w hb
    refine ⟨fun hk => ?_, fun k hk => ?_⟩
    · rw [eraseEffect_noKind hb hk]
      exact State.reply_ack h.settled m rest _
    · rw [eraseEffect_of_body hb hk]
      refine ⟨fun hidx => ?_, fun hidx huse => ?_, fun hidx huse => ?_⟩
      · rw [if_pos hidx]
        exact State.reply_ack h.settled m rest _
      · rw [if_neg (not_le.mpr hidx), if_pos (by exact huse)]
        exact State.reply_ack h.settled m rest _
      · rw [if_neg (not_le.mpr hidx), if_neg (by exact Bool.eq_false_iff.mp huse)]
        obtain ⟨htbm, hstack, -, -, -, hsce, hdlu, -, -, hcsq, -⟩ :=
          s.tableWritten_frame m rest k (entryIndex w) fun tb => tb.erase k (entryIndex w)
        refine ⟨htbm, fun hv => ?_, fun hv => (congrArg Tbm.mem htbm).trans (Tbm.erase_present hv _ _),
          ?_, ?_, hstack, hsce, hdlu, hcsq,
          State.tableWritten_fresh h.settled m rest _,
          fun hl => State.tableWritten_legal h.settled hl m rest k _ _⟩
        · have hflag := htbm.trans (Tbm.erase_flagged hv _ _)
          exact ⟨(congrArg Tbm.mem hflag).trans (Tbm.setValid_mem ..),
            (congrArg (Tbm.valid · k (entryIndex w)) hflag).trans (Tbm.valid_setValid_false hidx)⟩
        · rintro rfl
          exact (congrArg Tbm.mem htbm).trans (Tbm.erase_footmap _ _)
        · rintro rfl
          exact (congrArg Tbm.mem htbm).trans (Tbm.erase_cue _ _)

/-! ### COMMIT (R61) -/

theorem commitEffect_badLength {m : Message} (h : m.body.length ≠ 1) (s : State) :
    commitEffect m s = (s, ack .badLength) := by
  unfold commitEffect
  split
  · next hb => exact absurd (by rw [hb]; rfl) h
  · rfl

/-- The kinds with VALID flags are those of codes 0 to 2 (R46, R61). -/
theorem commitKind_above {a0 : Nat} (h : 2 < a0) : commitKind a0 = none := by
  unfold commitKind kindOf
  split <;> simp_all [TableKind.hasValid]

theorem commitKind_of {a0 : Nat} {k : TableKind} (hk : kindOf a0 = some k) (h : a0 ≤ 2) :
    commitKind a0 = some k ∧ k.hasValid = true := by
  interval_cases a0 <;> cases hk <;> exact ⟨rfl, rfl⟩

theorem commitEffect_noKind {m : Message} {w : Word24} (h : m.body = [w]) (hk : commitKind m.a0 = none)
    (s : State) : commitEffect m s = (s, ack .range) := by
  simp only [commitEffect, h, hk]

theorem commitEffect_of_body {m : Message} {w : Word24} (h : m.body = [w]) {k : TableKind}
    (hk : commitKind m.a0 = some k) (s : State) :
    commitEffect m s =
      if k.entries ≤ entryIndex w then (s, ack .range)
      else if s.tbm.commitCode k (entryIndex w) = .ok then
        (s.mapTbm fun tb => tb.setValid k (entryIndex w) true, ack .ok)
      else (s, ack (s.tbm.commitCode k (entryIndex w))) := by
  simp only [commitEffect, h, hk]

theorem Tbm.commitCode_valid {tb : Tbm} {k : TableKind} {idx : Nat} (h : tb.valid k idx = true) :
    tb.commitCode k idx = .ok := by
  simp [Tbm.commitCode, h]

theorem Tbm.commitCode_scene {tb : Tbm} {idx : Nat} (h : tb.valid .scene idx = false) :
    tb.commitCode .scene idx = validateScene (tb.word .scene idx) := by
  simp [Tbm.commitCode, h]

theorem Tbm.commitCode_other {tb : Tbm} {k : TableKind} {idx : Nat} (h : k ≠ .scene) :
    tb.commitCode k idx = .ok := by
  unfold Tbm.commitCode
  split
  · rfl
  · cases k <;> simp_all

/-- The COMMIT of an entry. -/
theorem commit_entry {m : Message} {rest : List Message} (h : Takes .commit m rest s) {w : Word24}
    (hb : m.body = [w]) {k : TableKind} (hk : commitKind m.a0 = some k) (hidx : entryIndex w < k.entries) :
    exec .commit s = .next
      (if s.tbm.commitCode k (entryIndex w) = .ok then
        { s.answered m rest (ack .ok) with tbm := s.tbm.setValid k (entryIndex w) true }
       else s.answered m rest (ack (s.tbm.commitCode k (entryIndex w)))) := by
  have heff := commitEffect_of_body hb hk (s.removeHead rest)
  rw [if_neg (not_le.mpr hidx)] at heff
  by_cases hok : s.tbm.commitCode k (entryIndex w) = .ok
  · rw [if_pos hok]
    exact h.answers_with (heff.trans (if_pos hok)) rfl rfl
  · rw [if_neg hok]
    exact h.answers (heff.trans (if_neg hok)) rfl

/-! ### What a COMMIT of a scene checks (R47, R61) -/

/-- The stage count of an entry (R47). -/
def sceneCount (word : Nat → Word24) : Nat := (word 1).toNat

/-- The entry has the structure of R47. -/
def SceneStructured (word : Nat → Word24) : Prop :=
  (word 0).toNat ≤ 2 ∧ (word 2).toNat ≤ 7 ∧ 1 ≤ sceneCount word ∧ sceneCount word ≤ 10 ∧
    ∀ k, k < sceneCount word → StageStructured word k

/-- The record that the words of an entry give. -/
def sceneAt (word : Nat → Word24) : SceneRecord :=
  { inputSelect := word 0, fadeCode := word 2, level := word 3
    stages := (List.range (sceneCount word)).map (stageAt word) }

/-- The limits of R61 beside the cost. -/
def SceneRecord.WithinLimits (r : SceneRecord) : Prop :=
  (r.stages.filter fun st => st.kind == .cab).length ≤ 1 ∧
  (r.stages.filter fun st => st.kind == .loop).length ≤ 1 ∧
  (r.stages.filterMap fun st => lineRef st.kind st.params).Nodup ∧
  ∀ n, r.taps = some n → n ∈ [128, 256, 384, 512, 640, 768, 896, 1024]

theorem parseScene_of_structured {word : Nat → Word24} (h : SceneStructured word) :
    parseScene word = some (sceneAt word) := by
  obtain ⟨-, -, hlow, hhigh, hstages⟩ := h
  have hparse := parseStages_some word (sceneCount word) 0 (by simpa using hstages)
  simp only [Nat.zero_add] at hparse
  change parseStages word 4 (sceneCount word) = _ at hparse
  unfold sceneCount at *
  rw [parseScene, if_neg (by omega), hparse]
  rfl

theorem validateScene_of_unstructured {word : Nat → Word24} (h : ¬ SceneStructured word) :
    validateScene word = .invalid := by
  unfold validateScene
  split
  · rfl
  · next hhead =>
    suffices hparse : parseScene word = none by rw [hparse]
    by_cases hcount : (word 1).toNat < 1 ∨ 10 < (word 1).toNat
    · rw [parseScene, if_pos hcount]
    · have hstage : ∃ k, k < sceneCount word ∧ ¬ StageStructured word k := by
        by_contra hall
        push Not at hall
        exact h ⟨by omega, by omega, by unfold sceneCount; omega, by unfold sceneCount; omega, hall⟩
      obtain ⟨k, hk, hbad⟩ := hstage
      have hnone := parseStages_none word (sceneCount word) 0 k hk (by rwa [Nat.zero_add])
      change parseStages word 4 (word 1).toNat = none at hnone
      rw [parseScene, if_neg hcount, hnone]
      rfl

/-- The checks of R61 behind the structure. -/
theorem validateScene_of_structured {word : Nat → Word24} (h : SceneStructured word) :
    let r := sceneAt word
    let total := (r.stages.map StageRecord.cost).sum
    (512 < total → validateScene word = .cost) ∧
    (total ≤ 512 → r.WithinLimits → validateScene word = .ok) ∧
    (total ≤ 512 → ¬ r.WithinLimits → validateScene word = .invalid) := by
  intro r total
  obtain ⟨hinput, hfade, -⟩ := id h
  rw [validateScene, if_neg (by omega), parseScene_of_structured h]
  refine ⟨fun hcost => if_pos hcost, fun hcost hlim => ?_, fun hcost hlim => ?_⟩
  · obtain ⟨hcab, hloop, hlines, htaps⟩ := hlim
    have hdistinct := (allDistinct_iff _).mpr hlines
    refine (if_neg (not_lt.mpr hcost)).trans ((if_neg ?_).trans ((if_neg ?_).trans ?_))
    · rw [not_or, not_lt, not_lt]
      exact ⟨hcab, hloop⟩
    · simpa using hdistinct
    · change (match r.taps with | none => _ | some n => _) = _
      cases ht : r.taps with
      | none => rfl
      | some n => exact if_pos ((tapCounts_iff n).mpr (htaps n ht))
  · refine (if_neg (not_lt.mpr hcost)).trans ?_
    by_cases hmany : 1 < (r.stages.filter fun st => st.kind == .cab).length ∨
        1 < (r.stages.filter fun st => st.kind == .loop).length
    · exact if_pos hmany
    refine (if_neg hmany).trans ?_
    by_cases hlines : allDistinct (r.stages.filterMap fun st => lineRef st.kind st.params) = true
    · refine (if_neg (by simpa using hlines)).trans ?_
      rw [not_or, not_lt, not_lt] at hmany
      change (match r.taps with | none => _ | some n => _) = _
      cases ht : r.taps with
      | none =>
        exact absurd ⟨hmany.1, hmany.2, (allDistinct_iff _).mp hlines, fun n hn => by simp [ht] at hn⟩ hlim
      | some n =>
        refine if_neg fun hn => hlim ⟨hmany.1, hmany.2, (allDistinct_iff _).mp hlines, fun k hk => ?_⟩
        rw [ht, Option.some.injEq] at hk
        exact hk ▸ (tapCounts_iff n).mp hn
    · exact if_pos (by simpa using hlines)

/-- With one CAB stage at most, the taps of the record are those of any CAB stage. -/
theorem SceneRecord.taps_iff {r : SceneRecord} (h : (r.stages.filter fun st => st.kind == .cab).length ≤ 1)
    (p : Nat → Prop) :
    (∀ n, r.taps = some n → p n) ↔ ∀ st ∈ r.stages, st.kind = .cab → p (st.params.getD 1 0).toNat := by
  have hmem : ∀ st, st ∈ r.stages.filter (fun st => st.kind == .cab) ↔ st ∈ r.stages ∧ st.kind = .cab := by
    simp [List.mem_filter]
  have htaps : r.taps = (r.stages.filter fun st => st.kind == .cab).head?.map fun st =>
      (st.params.getD 1 0).toNat := by
    rw [SceneRecord.taps, List.head?_filter]
  rcases hf : r.stages.filter (fun st => st.kind == .cab) with - | ⟨st, rest⟩
  · rw [hf] at hmem htaps
    simp only [htaps]
    exact ⟨fun _ st hst hk => absurd ((hmem st).mpr ⟨hst, hk⟩) (by simp), fun _ n hn => by simp at hn⟩
  · rw [hf] at hmem htaps h
    obtain rfl : rest = [] := List.length_eq_zero_iff.mp (by simpa using h)
    simp only [htaps, List.head?_cons, Option.map_some, Option.some.injEq, forall_eq']
    constructor
    · intro hp st' hst' hk
      rwa [List.mem_singleton.mp ((hmem st').mpr ⟨hst', hk⟩)]
    · obtain ⟨hst, hk⟩ := (hmem st).mp (by simp)
      exact fun hp => hp st hst hk

theorem stageAt_params_length {word : Nat → Word24} {k : Nat} (h : StageStructured word k) :
    (stageAt word k).params.length = (stageAt word k).kind.count := by
  obtain ⟨h1, h9, -⟩ := h
  simp only [stageAt, List.length_map, List.length_range]
  generalize bits 23 16 (word (stagePlace word k)) = c at *
  interval_cases c <;> rfl

theorem sceneAt_stages_length (word : Nat → Word24) : (sceneAt word).stages.length = sceneCount word := by
  simp [sceneAt]

theorem mem_sceneAt {word : Nat → Word24} {st : StageRecord} (h : st ∈ (sceneAt word).stages) :
    ∃ k, k < sceneCount word ∧ stageAt word k = st := by
  simpa [sceneAt] using h

/-- What a scene that passes the checks of R61 is. -/
theorem validateScene_ok {word : Nat → Word24} (h : validateScene word = .ok) :
    SceneStructured word ∧ ((sceneAt word).stages.map StageRecord.cost).sum ≤ 512 ∧
      (sceneAt word).WithinLimits := by
  by_cases hstr : SceneStructured word
  · obtain ⟨hcost, -, hbad⟩ := validateScene_of_structured hstr
    have hsum : ((sceneAt word).stages.map StageRecord.cost).sum ≤ 512 := by
      by_contra hc
      rw [hcost (by omega)] at h
      cases h
    refine ⟨hstr, hsum, ?_⟩
    by_contra hl
    rw [hbad hsum hl] at h
    cases h
  · rw [validateScene_of_unstructured hstr] at h
    cases h

/-- The kind of a stage by the code of its header (R48). -/
theorem stageAt_kind_iff {word : Nat → Word24} {k : Nat} (h : StageStructured word k) (K : StageKind) :
    (stageAt word k).kind = K ↔ bits 23 16 (word (stagePlace word k)) = K.code := by
  rw [← stageAt_kind_code word k h]
  cases (stageAt word k).kind <;> cases K <;> decide

/-- A parameter word that the kind of a stage has. -/
theorem stageAt_param {word : Nat → Word24} {k c i : Nat} (h : bits 23 16 (word (stagePlace word k)) = c)
    (hi : i < kindWords c) : (stageAt word k).params.getD i 0 = word (stagePlace word k + 1 + i) :=
  stageAt_params word k i (h ▸ hi)

theorem stageAt_line {word : Nat → Word24} {k : Nat} (h : StageStructured word k) :
    lineRef (stageAt word k).kind (stageAt word k).params =
      if bits 23 16 (word (stagePlace word k)) = 7 then
        some (min 3 (word (stagePlace word k + 1)).toNat)
      else none := by
  rw [lineRef_eq, stageAt_kind_code word k h]
  split
  · next hc => rw [stageAt_param hc (by decide)]
  · rfl

theorem stageAt_cost {word : Nat → Word24} {k : Nat} (h : StageStructured word k) :
    (stageAt word k).cost =
      if bits 23 16 (word (stagePlace word k)) = 5 then (word (stagePlace word k + 1 + 1)).toNat / 4
      else [0, 8, 10, 20, 60, 0, 24, 6, 4, 2].getD (bits 23 16 (word (stagePlace word k))) 0 := by
  rw [StageRecord.cost_eq, stageAt_kind_code word k h]
  split
  · next hc => rw [stageAt_param hc (by decide)]
  · rfl

/-- At most one stage of a kind, by the codes of the entry. -/
theorem sceneAt_filter_le_one {word : Nat → Word24} (h : SceneStructured word) (K : StageKind) :
    ((sceneAt word).stages.filter fun st => st.kind == K).length ≤ 1 ↔
      ∀ j k, j < k → k < sceneCount word → bits 23 16 (word (stagePlace word j)) = K.code →
        bits 23 16 (word (stagePlace word k)) ≠ K.code := by
  obtain ⟨-, -, -, -, hstages⟩ := h
  rw [filter_le_one, sceneAt, pairwise_stageAt]
  refine forall₂_congr fun j k => forall₂_congr fun hj hk => ?_
  rw [beq_iff_eq, beq_eq_false_iff_ne, stageAt_kind_iff (hstages j (hj.trans hk)), ne_eq,
    stageAt_kind_iff (hstages k hk)]

/-- No line used twice, by the codes and words of the entry. -/
theorem sceneAt_lines_nodup {word : Nat → Word24} (h : SceneStructured word) :
    ((sceneAt word).stages.filterMap fun st => lineRef st.kind st.params).Nodup ↔
      ∀ j k, j < k → k < sceneCount word →
        bits 23 16 (word (stagePlace word j)) = 7 → bits 23 16 (word (stagePlace word k)) = 7 →
        min 3 (word (stagePlace word j + 1)).toNat ≠ min 3 (word (stagePlace word k + 1)).toNat := by
  obtain ⟨-, -, -, -, hstages⟩ := h
  rw [List.Nodup, List.pairwise_filterMap, sceneAt, pairwise_stageAt]
  refine forall₂_congr fun j k => forall₂_congr fun hj hk => ?_
  rw [stageAt_line (hstages j (hj.trans hk)), stageAt_line (hstages k hk)]
  split <;> split <;> simp_all

/-- The limits of R61 by the codes and words of the entry. -/
theorem sceneAt_withinLimits {word : Nat → Word24} (h : SceneStructured word) :
    let code : Nat → Nat := fun k => bits 23 16 (word (stagePlace word k))
    let param : Nat → Nat → Nat := fun k i => (word (stagePlace word k + 1 + i)).toNat
    (sceneAt word).WithinLimits ↔
      (∀ j k, j < k → k < sceneCount word →
        (code j = 5 → code k ≠ 5) ∧ (code j = 8 → code k ≠ 8) ∧
        (code j = 7 → code k = 7 → min 3 (param j 0) ≠ min 3 (param k 0))) ∧
      ∀ k, k < sceneCount word → code k = 5 →
        param k 1 ∈ [128, 256, 384, 512, 640, 768, 896, 1024] := by
  intro code param
  have htaps : (∀ st ∈ (sceneAt word).stages, st.kind = .cab →
        (st.params.getD 1 0).toNat ∈ [128, 256, 384, 512, 640, 768, 896, 1024]) ↔
      ∀ k, k < sceneCount word → code k = 5 → param k 1 ∈ [128, 256, 384, 512, 640, 768, 896, 1024] := by
    have hcab := fun k hk => stageAt_kind_iff (h.2.2.2.2 k hk) .cab
    constructor
    · intro hall k hk hc
      have hmem := hall (stageAt word k) (by simpa [sceneAt] using ⟨k, hk, rfl⟩) ((hcab k hk).mpr hc)
      rwa [stageAt_param hc (by decide)] at hmem
    · intro hall st hst hkind
      obtain ⟨k, hk, rfl⟩ := mem_sceneAt hst
      have hc := (hcab k hk).mp hkind
      rw [stageAt_param hc (by decide)]
      exact hall k hk hc
  have hone := sceneAt_filter_le_one h .cab
  have hloop := sceneAt_filter_le_one h .loop
  have hlines := sceneAt_lines_nodup h
  constructor
  · rintro ⟨h1, h2, h3, h4⟩
    exact ⟨fun j k hj hk => ⟨hone.mp h1 j k hj hk, hloop.mp h2 j k hj hk, hlines.mp h3 j k hj hk⟩,
      htaps.mp ((SceneRecord.taps_iff h1 _).mp h4)⟩
  · rintro ⟨hpairs, h4⟩
    have h1 := hone.mpr fun j k hj hk => (hpairs j k hj hk).1
    exact ⟨h1, hloop.mpr fun j k hj hk => (hpairs j k hj hk).2.1,
      hlines.mpr fun j k hj hk => (hpairs j k hj hk).2.2, (SceneRecord.taps_iff h1 _).mpr (htaps.mpr h4)⟩

/-- The cost of a scene by the codes and words of the entry. -/
theorem sceneAt_cost {word : Nat → Word24} (h : SceneStructured word) :
    let code : Nat → Nat := fun k => bits 23 16 (word (stagePlace word k))
    let cost : Nat → Nat := fun k =>
      if code k = 5 then (word (stagePlace word k + 1 + 1)).toNat / 4
      else [0, 8, 10, 20, 60, 0, 24, 6, 4, 2].getD (code k) 0
    ((sceneAt word).stages.map StageRecord.cost).sum = ((List.range (sceneCount word)).map cost).sum := by
  intro code cost
  rw [sceneAt, List.map_map]
  refine congrArg List.sum (List.map_congr_left fun k hk => ?_)
  exact stageAt_cost (h.2.2.2.2 k (List.mem_range.mp hk))

/-- Settles O9. -/
theorem commitMakesValid : Obligations.CommitMakesValid := by
  refine ⟨fun m rest s h => ?_, fun word hok => ?_, fun word => ?_⟩
  · refine ⟨fun hlen => h.answers (commitEffect_badLength hlen _) rfl, fun w hb => ?_⟩
    refine ⟨fun ha => h.answers (commitEffect_noKind hb (commitKind_above ha) _) rfl, fun k hk ha => ?_⟩
    obtain ⟨hck, hflag⟩ := commitKind_of hk ha
    have heff := commitEffect_of_body hb hck (s.removeHead rest)
    refine ⟨fun hidx => h.answers (heff.trans (if_pos hidx)) rfl, fun hidx hv => ?_, fun hidx hv hne => ?_,
      fun hidx hv hscene => ?_⟩
    · rw [commit_entry h hb hck hidx, if_pos (Tbm.commitCode_valid hv), Tbm.setValid_of_valid hv]
      rfl
    · rw [commit_entry h hb hck hidx, if_pos (Tbm.commitCode_other hne)]
    · subst hscene
      rw [commit_entry h hb hck hidx, Tbm.commitCode_scene hv]
  · obtain ⟨hstr, hcost, hcab, hloop, hlines, htaps⟩ := validateScene_ok hok
    obtain ⟨hinput, hfade, hlow, hhigh, hstages⟩ := id hstr
    rw [← sceneAt_stages_length] at hlow hhigh
    refine ⟨sceneAt word, parseScene_of_structured hstr, hinput, hfade, hlow, hhigh, hcost, hcab, hloop, hlines,
      fun st hst => ⟨?_, (SceneRecord.taps_iff hcab _).mp htaps st hst⟩⟩
    obtain ⟨k, hk, rfl⟩ := mem_sceneAt hst
    exact stageAt_params_length (hstages k hk)
  · intro count code param words units cost total structured limited
    refine ⟨fun hn => validateScene_of_unstructured hn, fun hstr => ?_⟩
    replace hstr : SceneStructured word := hstr
    obtain ⟨hcost, hok, hbad⟩ := validateScene_of_structured hstr
    rw [sceneAt_cost hstr] at hcost hok hbad
    refine ⟨hcost, fun hsum hl => hbad hsum fun hw => hl ((sceneAt_withinLimits hstr).mp hw),
      fun hsum hl => hok hsum ((sceneAt_withinLimits hstr).mpr hl),
      sceneAt word, parseScene_of_structured hstr, rfl, rfl, rfl, sceneAt_stages_length word, ?_⟩
    intro k st hst
    obtain ⟨hk, rfl⟩ : k < count ∧ stageAt word k = st := by
      simpa [sceneAt, List.getElem?_eq_some_iff, and_comm, count, sceneCount] using hst
    exact ⟨stageAt_kind_code word k (hstr.2.2.2.2 k hk), rfl, rfl⟩

/-! ### STORE (R90) -/

theorem storeEffect_badLength {m : Message} (h : m.body ≠ []) (s : State) :
    storeEffect m s = (s, ack .badLength) := by
  unfold storeEffect
  split
  · next hb => exact absurd hb h
  · rfl

theorem storeEffect_range {m : Message} (h : m.body = []) (ha : 127 < m.a0) (s : State) :
    storeEffect m s = (s, ack .range) := by
  simp only [storeEffect, h, if_pos ha]

theorem storeEffect_noCopy {m : Message} (h : m.body = []) (ha : m.a0 ≤ 127) (hc : s.sce.live = none) :
    storeEffect m s = (s, ack .notPresent) := by
  simp only [storeEffect, h, if_neg (not_lt.mpr ha), hc]

theorem storeEffect_of_copy {m : Message} (h : m.body = []) (ha : m.a0 ≤ 127) {c : Copy}
    (hc : s.sce.live = some c) : storeEffect m s = s.store m.a0 c := by
  simp only [storeEffect, h, if_neg (not_lt.mpr ha), hc]

theorem isNumber_iff {n : Nat} (o : Option (Fin n)) (i : Fin n) : isNumber o i.val = true ↔ o = some i := by
  cases o with
  | none => simp [isNumber]
  | some j => simp [isNumber, Fin.ext_iff]

theorem SceneRecord.entryWords_length (r : SceneRecord) : r.entryWords.length = 274 := by
  rw [SceneRecord.entryWords, List.length_take, List.length_append, List.length_replicate]
  omega

theorem SceneRecord.entryWords_getD (r : SceneRecord) {i : Nat} (hi : i < 274) :
    r.entryWords.getD i 0 = r.words.getD i 0 := by
  simp only [SceneRecord.entryWords, List.getD_eq_getElem?_getD, List.getElem?_take, if_pos hi,
    List.getElem?_append, List.getElem?_replicate]
  split
  · rfl
  · next hlen => simp [List.getElem?_eq_none (not_lt.mp hlen), show i - r.words.length < 274 by omega]

/-- What a STORE into entry `n` makes of the tables. -/
theorem Tbm.storeScene_written (tb : Tbm) (n : SceneNo) (r : SceneRecord) :
    let t := tb.storeScene n r
    t.validScene.get n = true ∧
    (∀ k j, k ≠ .scene ∨ j ≠ n.val → t.valid k j = tb.valid k j) ∧
    t.gateLimit = tb.gateLimit ∧
    (tb.mem.wf = true →
      (∀ i, i < 274 → t.word .scene n i = r.words.getD i 0) ∧
      (∀ a, a < entryAddr .scene n 0 ∨ entryAddr .scene n 274 ≤ a → t.mem.read a = tb.mem.read a)) := by
  intro t
  have hmem : t.mem = (tb.writeEntry .scene n 0 r.entryWords).mem := Tbm.setValid_mem ..
  have hn : n.val < 128 := n.isLt
  refine ⟨?_, fun k j hj => Tbm.valid_setValid_other hj true, Tbm.setValid_gateLimit .., fun w =>
    ⟨fun i hi => ?_, fun a ha => ?_⟩⟩
  · have hv : t.valid .scene n = true := Tbm.valid_setValid_same rfl hn true
    rwa [Tbm.valid, dif_pos hn] at hv
  · have hword := Tbm.writeEntry_read_same w .scene n 0 r.entryWords
      (i := i) (by rwa [SceneRecord.entryWords_length])
    rw [Tbm.word, hmem, show entryAddr .scene n i = entryAddr .scene n 0 + i by
      rw [← entryAddr_add, Nat.zero_add], hword]
    exact r.entryWords_getD hi
  · rw [hmem]
    refine Tbm.writeEntry_read_other w .scene n 0 r.entryWords ?_
    rwa [SceneRecord.entryWords_length, ← entryAddr_add, Nat.zero_add]

/-- The staging slots with the record of the LIVE slot's image replaced (R90). -/
def Stg.withLiveRecord (g : Stg) (r : SceneRecord) : Stg :=
  match g.liveSlot with
  | none => g
  | some i =>
    let slot := g.slots.get i
    { g with slots := upd g.slots i { slot with image := slot.image.map fun im => { im with record := r } } }

theorem State.storeImage_eq (r : SceneRecord) (s : State) :
    s.storeImage r = { s with stg := s.stg.withLiveRecord r } := by
  unfold State.storeImage Stg.withLiveRecord
  cases s.stg.liveSlot <;> rfl

theorem State.store_own {n : Nat} {c : Copy} (h : isNumber s.liveScene n = true)
    (hc : s.sce.live = some c) :
    s.store n c =
      ({ s with
          tbm := s.tbm.storeScene n c.record
          stg := s.stg.withLiveRecord c.record
          sce := { s.sce with live := some { c with edited := false } } }, ack .ok) := by
  have hcopy : s.sce.mapCopy .live (fun c => { c with edited := false }) =
      { s.sce with live := some { c with edited := false } } := by
    simp [Sce.mapCopy, hc]
  rw [State.store, if_pos h, State.storeImage_eq]
  exact congrArg (fun x =>
    (({ s with tbm := s.tbm.storeScene n c.record, stg := s.stg.withLiveRecord c.record, sce := x } : State),
      ack .ok)) hcopy

theorem State.store_other {n : Nat} {c : Copy} (h : ¬ isNumber s.liveScene n = true) :
    s.store n c =
      if s.inUse .scene n then (s, ack .inUse)
      else ((s.invalidate .scene n).mapTbm fun tb => tb.storeScene n c.record, ack .ok) := by
  rw [State.store, if_neg h]

/-- Settles O10. -/
theorem storeWritesTheLiveCopy : Obligations.StoreWritesTheLiveCopy := by
  intro m rest s h
  refine ⟨State.reply m (storeEffect m (s.removeHead rest)), h.run storeEffect, fun hb => ?_,
    fun hb ha => ?_, fun hb ha hc => ?_, fun c n hb hn hc => ?_⟩
  · rw [storeEffect_badLength hb]
    exact State.reply_ack h.settled m rest _
  · rw [storeEffect_range hb ha]
    exact State.reply_ack h.settled m rest _
  · rw [storeEffect_noCopy (s := s.removeHead rest) hb ha hc]
    exact State.reply_ack h.settled m rest _
  · rw [storeEffect_of_copy (s := s.removeHead rest) hb (by omega) hc, ← hn]
    have hwritten := s.tbm.storeScene_written n c.record
    intro own written
    have hnumber : isNumber s.liveScene n.val = true ↔ own := isNumber_iff _ _
    refine ⟨fun hown huse => ?_, fun hown => ?_, fun hown huse => ?_⟩
    · rw [State.store_other (s := s.removeHead rest) (by exact mt hnumber.mp hown), if_pos (by exact huse)]
      exact State.reply_ack h.settled m rest _
    · dsimp only [written]
      rw [State.store_own (s := s.removeHead rest) (by exact hnumber.mpr hown) hc,
        State.reply_of_cch h.settled (by rfl) m _ rfl]
      refine ⟨hwritten, ?_⟩
      rfl
    · dsimp only [written]
      rw [State.store_other (s := s.removeHead rest) (by exact mt hnumber.mp hown),
        if_neg (by exact Bool.eq_false_iff.mp huse)]
      obtain ⟨htbm, hstack, hcross, -, -, hsce, hdlu, -, -, hcsq, -⟩ :=
        s.tableWritten_frame m rest .scene n.val fun tb => tb.storeScene n c.record
      refine ⟨?_, hsce, hdlu, hstack, hcross, hcsq, fun hfresh => ?_, fun hl => ?_⟩
      · exact htbm ▸ hwritten
      · exact (State.tableWritten_fresh h.settled m rest _ hfresh).trans (by rw [← htbm]; rfl)
      · exact (State.tableWritten_legal h.settled hl m rest _ _ _).trans (by rw [← htbm]; rfl)

end Sys2Proof.Machine


/-! PROOF. Switch requests, the pending switch, base switches and the return stack (R134–R138, R142,
R162–R168), and the dispatch of gates (R157–R161). -/

namespace Sys2Proof.Machine

variable {s : State}

/-! ### A pending switch superseded (R138) -/

/-- The slots once the slot of the pending switch, if there is one, has lost its demand. -/
def Stg.undemanded (g : Stg) (p : Option Pending) : Stg :=
  match p.bind fun p => p.req.target.bind g.holding with
  | none => g
  | some i =>
    let slot := g.slots.get i
    { g with slots := upd g.slots i { slot with demanded := false } }

/-- The report about the pending switch that a request supersedes, if there is one. -/
def State.superseding (d : Option SceneNo) (s : State) : List Record :=
  s.swu.pending.toList.map fun p => switchRecord p.req .superseded d p.req.target false false

/-- The state behind the end of a pending switch that a request supersedes. -/
def State.superseded (d : Option SceneNo) (s : State) : State :=
  { s with
    swu := { s.swu with pending := none }
    stg := s.stg.undemanded s.swu.pending
    cch := { s.cch with outbox := s.cch.outbox ++ s.superseding d } }

theorem State.removePending_superseded (d : Option SceneNo) (s : State) :
    s.removePending .superseded d = s.superseded d := by
  rw [State.removePending_eq]
  unfold State.superseded Stg.undemanded
  cases s.swu.pending.bind fun p => p.req.target.bind s.stg.holding <;> rfl

/-! ### Switch requests (R135, R136) -/

theorem State.switchRequest_already {r : Request} (h : r.target = s.destination) :
    s.switchRequest r = (s.superseded s.destination, .already) := by
  rw [State.switchRequest, if_pos h, State.refusePending, State.removePending_superseded]

theorem State.switchRequest_new {r : Request} (h : r.target ≠ s.destination)
    (hx : s.swu.crossfade = none ∨ r.target ≠ s.otherParty) : s.switchRequest r = s.newPending r := by
  rw [State.switchRequest, if_neg h, if_neg]
  rintro ⟨hsome, htarget⟩
  rcases hx with hx | hx
  · simp [hx] at hsome
  · exact hx htarget

theorem State.switchRequest_turn {r : Request} (h : r.target ≠ s.destination)
    (hx : s.swu.crossfade.isSome = true) (ht : r.target = s.otherParty) :
    s.switchRequest r = s.turnRequest r := by
  rw [State.switchRequest, if_neg h, if_pos ⟨hx, ht⟩]

/-- The arm request of a switch request for scene `n` (R135). -/
def armFor (r : Request) (n : SceneNo) : ArmRequest :=
  { scene := n, pin := false, cuePin := false, demand := true, origin := .request, tag := r.tag }

theorem State.newPending_none {r : Request} (h : r.target = none) :
    s.newPending r = ((s.superseded s.destination).makePending r, .accepted) := by
  simp only [State.newPending, h, State.refusePending, State.removePending_superseded]

theorem State.newPending_refused {r : Request} {n : SceneNo} (h : r.target = some n) {t : State} {c : Code}
    (ha : (s.superseded s.destination).armRequest (armFor r n) = (t, c)) (hc : c = .notPresent ∨ c = .busy) :
    s.newPending r = (s.superseded s.destination, c) := by
  unfold armFor at ha
  rcases hc with rfl | rfl <;>
    simp only [State.newPending, h, State.refusePending, State.removePending_superseded, ha]

theorem State.newPending_armed {r : Request} {n : SceneNo} (h : r.target = some n) {t : State} {c : Code}
    (ha : (s.superseded s.destination).armRequest (armFor r n) = (t, c)) (hc : c ≠ .notPresent)
    (hb : c ≠ .busy) : s.newPending r = (t.makePending r, .accepted) := by
  unfold armFor at ha
  cases c <;> simp_all [State.newPending, State.refusePending, State.removePending_superseded]

/-! ### SWITCH_SCENE (R134) -/

theorem targetInRange_iff (a0 : Nat) : targetInRange a0 = true ↔ a0 < 128 ∨ a0 = 255 := by
  simp [targetInRange]

theorem switchSceneEffect_badLength {m : Message} (h : 2 ≤ m.body.length) (s : State) :
    switchSceneEffect m s = (s, ack .badLength) := by
  unfold switchSceneEffect
  split
  · next hb => rw [hb] at h; simp at h
  · next hb => rw [hb] at h; simp at h
  · rfl

theorem switchSceneEffect_range {m : Message} (h : m.body = [])
    (hn : ¬ (m.a0 < 128 ∨ m.a0 = 255)) (s : State) : switchSceneEffect m s = (s, ack .range) := by
  simp only [switchSceneEffect, h]
  exact if_neg (mt (targetInRange_iff _).mp hn)

theorem switchSceneEffect_range_word {m : Message} {w : Word24} (h : m.body = [w])
    (hn : ¬ (m.a0 < 128 ∨ m.a0 = 255) ∨ bits 17 16 w = 3) (s : State) :
    switchSceneEffect m s = (s, ack .range) := by
  simp only [switchSceneEffect, h]
  refine if_neg fun ht => ?_
  rw [Bool.and_eq_true, targetInRange_iff, decide_eq_true_eq] at ht
  exact hn.elim (· ht.1) ht.2

/-- The quantize and override that a SWITCH_SCENE names. -/
def SwitchSceneNames (m : Message) (q : Quantize) (o : Option (Fin 8)) : Prop :=
  (m.body = [] ∧ q = .none ∧ o = none) ∨
    ∃ w, m.body = [w] ∧ bits 17 16 w ≠ 3 ∧ q = quantizeOf (bits 17 16 w) ∧ o = overrideOf w

theorem switchSceneEffect_named {m : Message} {q : Quantize} {o : Option (Fin 8)}
    (h : SwitchSceneNames m q o) (hn : m.a0 < 128 ∨ m.a0 = 255) (s : State) :
    switchSceneEffect m s = answer (s.baseSwitch (switchSceneRequest m q o)) := by
  have ht := (targetInRange_iff m.a0).mpr hn
  rcases h with ⟨hb, rfl, rfl⟩ | ⟨w, hb, hw, rfl, rfl⟩
  · simp only [switchSceneEffect, hb, ht, if_true]
  · simp only [switchSceneEffect, hb]
    exact if_pos (by simp [ht, hw])

theorem State.baseSwitch_empty {r : Request} (h : s.swu.stack = []) : s.baseSwitch r = s.switchRequest r := by
  simp [State.baseSwitch, h]

theorem StgSlot.flagged_armFor (r : Request) (n : SceneNo) (t : StgSlot) :
    t.flagged (armFor r n) = { t with demanded := true } := by
  simp [StgSlot.flagged, armFor]

section Requested

variable {m : Message} {rest : List Message} {q : Quantize} {o : Option (Fin 8)}

/-- A SWITCH_SCENE with an empty stack whose request leaves the state `t`, with reports. -/
theorem switchScene_requests (h : Takes .switchScene m rest s) (hq : SwitchSceneNames m q o)
    (hn : m.a0 < 128 ∨ m.a0 = 255) (hstack : s.swu.stack = []) {t : State} {c : Code} {rs : List Record}
    (ht : (s.removeHead rest).switchRequest (switchSceneRequest m q o) = (t, c))
    (hcch : t.cch = { (s.removeHead rest).cch with outbox := s.cch.outbox ++ rs }) :
    exec .switchScene s =
      .next (State.reporting rs { t with cch := s.cch.answered rest ((ack c).record m.tag) }) := by
  have heff := switchSceneEffect_named hq hn (s.removeHead rest)
  rw [State.baseSwitch_empty (by exact hstack), ht] at heff
  rw [h.settled.reported, List.nil_append] at hcch
  exact h.answers_reporting heff hcch rfl

end Requested

/-- Settles O13. -/
theorem switchSceneMakesThePendingSwitch : Obligations.SwitchSceneMakesThePendingSwitch := by
  intro m rest s h named
  refine ⟨fun hb => h.answers (switchSceneEffect_badLength hb _) rfl,
    fun hb hn => h.answers (switchSceneEffect_range hb hn _) rfl,
    fun w hb hn => h.answers (switchSceneEffect_range_word hb hn _) rfl, ?_⟩
  intro q o hq hnamed hstack r held destination other stg reports ended pending waiting
  have hrequests := fun t c rs => switchScene_requests (t := t) (c := c) (rs := rs) h hq hnamed hstack
  refine ⟨fun ht => hrequests _ _ reports (State.switchRequest_already ht) rfl, fun ht hx => ?_⟩
  have hnew : (s.removeHead rest).switchRequest r = (s.removeHead rest).newPending r :=
    State.switchRequest_new ht hx
  refine ⟨fun hnone => hrequests _ _ reports (hnew.trans (State.newPending_none hnone)) rfl, fun n hn => ?_⟩
  refine ⟨fun hv => ?_, fun hv i hi => ?_, fun hv hh hc => ?_, fun hv hh i hi => ?_⟩
  · exact hrequests _ _ reports
      (hnew.trans (State.newPending_refused hn (State.armRequest_invalid hv) (.inl rfl))) rfl
  · refine (hrequests _ _ reports
      (hnew.trans (State.newPending_armed hn (State.armRequest_held hv hi) ?_ ?_)) rfl).trans ?_
    · split <;> decide
    · split <;> decide
    · rw [State.setSlot_eq, StgSlot.flagged_armFor]
      rfl
  · exact hrequests _ _ reports
      (hnew.trans (State.newPending_refused hn (State.armRequest_busy hv hh hc) (.inr rfl))) rfl
  · refine (hrequests _ _ reports
      (hnew.trans (State.newPending_armed hn (State.armRequest_taken hv hh hi) (by decide) (by decide))) rfl).trans ?_
    rw [State.queueSlot_eq]
    rfl

/-! ### Reversal requests (R135 case 2, R142) -/

theorem State.turnRequest_held {x : Crossfade} (hx : s.swu.crossfade = some x) (hr : x.reversal = none)
    (r : Request) :
    s.turnRequest r =
      ({ s.superseded s.destination with swu := { s.swu with
          pending := none
          crossfade := some { x with reversal := some r, reversalFresh := true } } }, .accepted) := by
  simp only [State.turnRequest, hx, Option.bind_some, hr, State.removePending_superseded,
    State.setReversal, State.mapSwu, State.superseded, Option.map_some]
  rfl

theorem State.turnRequest_withdrawn {x : Crossfade} (hx : s.swu.crossfade = some x) {h : Request}
    (hr : x.reversal = some h) (r : Request) :
    s.turnRequest r =
      ({ s with
          swu := { s.swu with
            pending := none, crossfade := some { x with reversal := none, reversalFresh := false } }
          stg := s.stg.undemanded s.swu.pending
          cch := { s.cch with outbox := s.cch.outbox ++
            (switchRecord h .superseded s.destination h.target false false ::
              s.superseding s.destination) } }, .already) := by
  simp only [State.turnRequest, hx, Option.bind_some, hr, State.removePending_superseded]
  simp only [State.superseded, State.switchReport, State.raise, State.setReversal, State.mapSwu, State.mapCch,
    hx, Option.map_some, List.append_assoc]
  rfl

theorem State.reversalHeld_of {x : Crossfade} (hx : s.swu.crossfade = some x) :
    s.reversalHeld = x.reversal.isSome := by
  simp [State.reversalHeld, hx]

theorem State.destination_of_held {x : Crossfade} (hx : s.swu.crossfade = some x)
    (hr : x.reversal.isSome = true) : s.destination = s.fadingScene ∧ s.otherParty = s.liveScene := by
  rw [State.destination, State.otherParty, State.reversalHeld_of hx, hr]
  exact ⟨rfl, rfl⟩

theorem State.destination_of_free {x : Crossfade} (hx : s.swu.crossfade = some x)
    (hr : x.reversal = none) : s.destination = s.liveScene ∧ s.otherParty = s.fadingScene := by
  rw [State.destination, State.otherParty, State.reversalHeld_of hx, hr]
  exact ⟨rfl, rfl⟩

/-- Settles O14. -/
theorem switchSceneTurnsACrossfade : Obligations.SwitchSceneTurnsACrossfade := by
  intro m rest s x h q o hq hnamed hstack hx hparties r stg reports turned
  have hrequests := fun t c rs => switchScene_requests (t := t) (c := c) (rs := rs) h hq hnamed hstack
  constructor
  · intro hr ht
    obtain ⟨hdest, hother⟩ := State.destination_of_free (s := s.removeHead rest) hx hr
    have hturn := State.switchRequest_turn (s := s.removeHead rest) (r := r)
      (by rw [hdest, ht]; exact hparties.symm) (by rw [show (s.removeHead rest).swu = s.swu from rfl, hx]; rfl)
      (by rw [hother]; exact ht)
    refine hrequests _ _ (reports s.liveScene)
      (hturn.trans (State.turnRequest_held (s := s.removeHead rest) hx hr r)) ?_
    rw [hdest]
    rfl
  · intro held hr ht
    obtain ⟨hdest, hother⟩ := State.destination_of_held (s := s.removeHead rest) hx (by rw [hr]; rfl)
    have hturn := State.switchRequest_turn (s := s.removeHead rest) (r := r)
      (by rw [hdest, ht]; exact hparties) (by rw [show (s.removeHead rest).swu = s.swu from rfl, hx]; rfl)
      (by rw [hother]; exact ht)
    refine hrequests _ _ _ (hturn.trans (State.turnRequest_withdrawn (s := s.removeHead rest) hx hr r)) ?_
    rw [hdest]
    rfl

/-! ### Base switches (R167) -/

/-- The state whose return stack has `n` as saved scene of every entry (R167). -/
def State.rewritten (n : Option SceneNo) (s : State) : State :=
  { s with swu := { s.swu with stack := s.swu.stack.map fun e => { e with saved := n } } }

theorem State.baseSwitch_cue {r : Request} (h : s.swu.stack ≠ []) (hc : r.source = .cue) :
    s.baseSwitch r = (s.rewritten r.target, .ok) := by
  rw [State.baseSwitch, if_neg (by simpa using h), if_pos hc]
  rfl

theorem State.baseSwitch_other {r : Request} (h : s.swu.stack ≠ []) (hc : r.source ≠ .cue) :
    s.baseSwitch r = (s.rewritten r.target).switchRequest r := by
  rw [State.baseSwitch, if_neg (by simpa using h), if_neg hc]
  rfl

theorem State.baseSwitch_stack (r : Request) (s : State) :
    (s.baseSwitch r).1.swu.stack = s.swu.stack.map fun e => { e with saved := r.target } := by
  by_cases h : s.swu.stack = []
  · rw [State.baseSwitch_empty h]
    simp [h]
  by_cases hc : r.source = .cue
  · rw [State.baseSwitch_cue h hc]
    rfl
  · rw [State.baseSwitch_other h hc]
    simp [State.rewritten]

/-- Settles O15. -/
theorem baseSwitchRewritesSavedScenes : Obligations.BaseSwitchRewritesSavedScenes := by
  refine ⟨fun m rest s h hnamed hbody => ?_, fun r s => ⟨State.baseSwitch_empty, State.baseSwitch_cue,
    State.baseSwitch_other⟩⟩
  obtain ⟨q, o, hq⟩ : ∃ q o, SwitchSceneNames m q o := by
    rcases hbody with hb | ⟨w, hb, hw⟩
    · exact ⟨_, _, .inl ⟨hb, rfl, rfl⟩⟩
    · exact ⟨_, _, .inr ⟨w, hb, hw, rfl, rfl⟩⟩
  refine ⟨_, h.run switchSceneEffect, ?_⟩
  rw [switchSceneEffect_named hq hnamed]
  simp only [answer, State.reply_ack_eq, State.reporting_frame, State.reporting_fifo]
  refine ⟨State.baseSwitch_fifo _ _, State.baseSwitch_stack _ _, ?_⟩
  simp

/-! ### Pops (R164) -/

/-- The state whose return stack is `st` once entry `e` has gone: with the last TUNER entry gone and the mode
OFF, the measurement stops (R194). -/
def State.without (st : List StackEntry) (e : StackEntry) (s : State) : State :=
  { s with
    swu := { s.swu with stack := st }
    tun := if e.reason = .tuner ∧ (∀ e' ∈ st, e'.reason ≠ .tuner) ∧ s.tun.mode = .off then
        { s.tun.restartWindow with pacingDue := false }
      else s.tun }

theorem State.dropTop_eq {es : List StackEntry} {e : StackEntry} (h : s.swu.stack = es ++ [e]) :
    s.dropTop = s.without es e := by
  have hdrop : s.swu.stack.dropLast = es := by rw [h, List.dropLast_concat]
  calc s.dropTop
      = (s.mapSwu fun u => { u with stack := es }).followTuner s.tunerState :=
        congrArg (fun st => (s.mapSwu fun u => { u with stack := st }).followTuner s.tunerState) hdrop
    _ = s.without es e :=
        State.followTuner_removed es e s ⟨es, [], by rw [h], by rw [List.append_nil]⟩

/-- The request of a pop (R164). -/
def popRequest (n : Option SceneNo) (p : PopBy) : Request :=
  { target := n, source := p.source, quantize := .none, override := none, gate := p.gate
    owner := p.owner, tag := p.tag }

theorem State.pop_empty (h : s.swu.stack = []) (p : PopBy) : s.pop p = (s, .stackEmpty) := by
  simp [State.pop, h]

theorem State.pop_eq {es : List StackEntry} {e : StackEntry} (h : s.swu.stack = es ++ [e]) (p : PopBy) :
    s.pop p =
      if s.swu.pending.any (fun p => p.req.target == e.saved) = true then (s.without es e, .accepted)
      else (s.without es e).switchRequest (popRequest e.saved p) := by
  rw [State.pop, h, List.getLast?_concat]
  dsimp only
  rw [State.dropTop_eq h]
  rfl

theorem State.switchRequest_fifo (r : Request) (s : State) :
    (s.switchRequest r).1.cch.fifo = s.cch.fifo := by
  unfold State.switchRequest State.turnRequest State.newPending State.refusePending
  dsimp only
  (repeat' split) <;>
    simp [State.removePending_fifo, State.setReversal, State.makePending, State.switchReport, State.raise]

theorem State.superseded_of_none (h : s.swu.pending = none) (d : Option SceneNo) :
    s.superseded d = s := by
  obtain ⟨_, _, _, _, ⟨pending, _, _⟩, _, _, _, _, _, _, _, _⟩ := s
  obtain rfl : pending = none := h
  simp [State.superseded, State.superseding, Stg.undemanded]

theorem State.pop_leaves {es : List StackEntry} {e : StackEntry} (h : s.swu.stack = es ++ [e]) (p : PopBy) :
    let t := (s.pop p).1
    t.swu.stack = es ∧ t.cch.fifo = s.cch.fifo ∧ t.tun = (s.without es e).tun ∧ t.tbm = s.tbm ∧
      t.sce = s.sce ∧ t.dlu = s.dlu ∧ t.csq = s.csq ∧ t.tck = s.tck := by
  rw [State.pop_eq h]
  split
  · exact ⟨rfl, rfl, rfl, rfl, rfl, rfl, rfl, rfl⟩
  · simp [State.switchRequest_fifo, State.without]

theorem returnEffect_badLength {m : Message} (h : m.body ≠ []) (s : State) :
    returnEffect m s = (s, ack .badLength) := by
  unfold returnEffect
  split
  · next hb => exact absurd hb h
  · rfl

theorem returnEffect_of_body {m : Message} (h : m.body = []) (s : State) :
    returnEffect m s =
      answer (s.pop { source := .controller, gate := none, owner := none, tag := m.tag }) := by
  simp only [returnEffect, h]

/-- Settles O16. -/
theorem returnPopsTheTopEntry : Obligations.ReturnPopsTheTopEntry := by
  intro m rest s h
  refine ⟨fun hb => h.answers (returnEffect_badLength hb _) rfl, fun hb hstack => ?_, ?_⟩
  · refine h.answers ((returnEffect_of_body hb _).trans ?_) rfl
    rw [State.pop_empty (s := s.removeHead rest) hstack]
    rfl
  · intro es e hb hstack tun
    let by_ : PopBy := { source := .controller, gate := none, owner := none, tag := m.tag }
    have heff : returnEffect m (s.removeHead rest) = answer ((s.removeHead rest).pop by_) :=
      returnEffect_of_body hb _
    have hpop := State.pop_eq (s := s.removeHead rest) hstack by_
    refine ⟨⟨_, h.run returnEffect, ?_⟩, fun p hp htarget => ?_, fun hother => ?_, fun hp hx hsaved => ?_⟩
    · rw [heff]
      simp only [answer, State.reply_ack_eq, State.reporting_frame, State.reporting_fifo]
      exact State.pop_leaves (s := s.removeHead rest) hstack by_
    · rw [if_pos (by simp [State.removeHead_eq, hp, htarget])] at hpop
      rw [hpop] at heff
      exact h.answers_with heff rfl rfl
    · rw [if_neg (by simpa [State.removeHead_eq, Option.any_eq_true] using hother)] at hpop
      rw [hpop] at heff
      exact (h.run returnEffect).trans (by rw [heff]; rfl)
    · rw [if_neg (by simp [State.removeHead_eq, hp]), State.switchRequest_already,
        State.superseded_of_none (by exact hp)] at hpop
      · rw [hpop] at heff
        exact h.answers_with heff rfl rfl
      · rw [State.destination, State.reversalHeld]
        simp [State.without, State.removeHead_eq, hx, popRequest, hsaved]
        rfl

/-! ### Pushes (R162) -/

/-- The state with an entry on top of its return stack. -/
def State.stacked (e : StackEntry) (s : State) : State :=
  { s with swu := { s.swu with stack := s.swu.stack ++ [e] } }

/-- The entry that a push adds (R162). -/
def State.pushedEntry (reason : Reason) (owner : Option SwitchNo) (s : State) : StackEntry :=
  { saved := match s.swu.pending with
      | some p => p.req.target
      | none => s.destination
    reason := reason, owner := owner }

theorem State.push_eq (reason : Reason) (owner : Option SwitchNo) (s : State) :
    s.push reason owner = (s.stacked (s.pushedEntry reason owner)).followTuner s.tunerState := by
  unfold State.push State.savedByPush State.stacked State.pushedEntry
  cases s.swu.pending <;> rfl

theorem State.followTuner_same {t : TunerState} (h : s.tunerState = t) : s.followTuner t = s := by
  subst h
  unfold State.followTuner
  cases s.tunerState <;> rfl

theorem State.engaged_stacked (e : StackEntry) (s : State) :
    (s.stacked e).engaged = (s.engaged || e.reason == .tuner) := by
  simp [State.engaged, State.stacked]

/-- A MOMENTARY entry leaves the tuner as it is. -/
theorem State.push_momentary (owner : Option SwitchNo) (s : State) :
    s.push .momentary owner = s.stacked (s.pushedEntry .momentary owner) := by
  rw [State.push_eq]
  refine State.followTuner_same ?_
  rw [State.tunerState, State.tunerState, State.engaged_stacked]
  simp [State.pushedEntry, State.stacked]

/-- The first TUNER entry engages the tuner: measurement leaves OFF with its window restarted (R194). -/
theorem State.push_tuner (h : s.engaged = false) (owner : Option SwitchNo) :
    s.push .tuner owner = { s.stacked (s.pushedEntry .tuner owner) with
      tun := if s.tun.mode = .off then { s.tun.restartWindow with pacing := 0, pacingDue := false }
        else s.tun } := by
  have hafter : (s.stacked (s.pushedEntry .tuner owner)).tunerState = .engaged := by
    rw [State.tunerState, State.engaged_stacked, h]
    rfl
  rw [State.push_eq]
  cases hmode : s.tun.mode with
  | off =>
    have hbefore : s.tunerState = .off := by simp [State.tunerState, h, hmode]
    simp only [State.followTuner, hafter, hbefore]
    rfl
  | background =>
    have hbefore : s.tunerState = .background := by simp [State.tunerState, h, hmode]
    simp only [State.followTuner, hafter, hbefore]
    rfl

/-! ### Cue operations (R189) -/

/-- A list runs, in one of the three states in which operations are held (R189). -/
abbrev Csq.Runs (c : Csq) : Prop := c.state = .running ∨ c.state = .vamping ∨ c.state = .held

theorem State.holdOp_skipped (h : ¬ s.csq.Runs) (op : HeldOp) : s.holdOp op = (s, .skipped) := by
  unfold State.holdOp
  cases hs : s.csq.state <;> simp_all [Csq.Runs]

theorem State.holdOp_runs (h : s.csq.Runs) (op : HeldOp) :
    s.holdOp op = if s.csq.heldOp = some op then (s, .already)
      else ({ s with csq := { s.csq with heldOp := some op } }, .accepted) := by
  unfold State.holdOp
  rcases h with h | h | h <;> rw [h] <;> rfl

theorem State.holdOp_eq (op : HeldOp) (s : State) :
    s.holdOp op = if ¬ s.csq.Runs then (s, .skipped)
      else if s.csq.heldOp = some op then (s, .already)
      else ({ s with csq := { s.csq with heldOp := some op } }, .accepted) := by
  split
  · next h => exact State.holdOp_skipped h op
  · next h => exact State.holdOp_runs (not_not.mp h) op

theorem State.cueOp_stop (s : State) :
    s.cueOp .stop = if s.csq.state = .idle ∧ s.csq.waiting = none then (s, .skipped) else (s.stopList, .ok) := by
  simp only [State.cueOp, Option.isNone_iff_eq_none]

/-! ### Taps (R176) -/

/-- The state with its tap series open, its count at 0 and a history. -/
def State.tapped (history : List Nat) (s : State) : State :=
  { s with tck := { s.tck with tapOpen := true, tapCount := 0, tapHistory := history } }

theorem State.tapEvent_opens (h : s.tck.tapOpen = false) (src : Source) (tag : Byte) :
    s.tapEvent src tag = (s.tapped [], .ok) := by
  simp [State.tapEvent, h, State.tapped, State.mapTck]

theorem State.tapEvent_early (h : s.tck.tapOpen = true) (hc : s.tck.tapCount < 12000) (src : Source)
    (tag : Byte) : s.tapEvent src tag = (s, .skipped) := by
  simp [State.tapEvent, h, Config.periodMin, hc]

theorem State.tapEvent_late (h : s.tck.tapOpen = true) (hc : 144000 < s.tck.tapCount) (src : Source)
    (tag : Byte) : s.tapEvent src tag = (s.tapped [], .ok) := by
  simp [State.tapEvent, h, Config.periodMin, Config.periodMax, show ¬ s.tck.tapCount < 12000 by omega,
    show ¬ s.tck.tapCount ≤ 144000 by omega, State.tapped, State.mapTck]

theorem State.tapEvent_joins (h : s.tck.tapOpen = true) (hlow : 12000 ≤ s.tck.tapCount)
    (hhigh : s.tck.tapCount ≤ 144000) (src : Source) (tag : Byte) :
    s.tapEvent src tag =
      ((s.tapped ((s.tck.tapHistory ++ [s.tck.tapCount]).reverse.take 4).reverse).tapPeriod src tag,
        .ok) := by
  rw [List.take_reverse, List.reverse_reverse, List.length_append, List.length_singleton]
  simp [State.tapEvent, h, Config.periodMin, Config.periodMax, show ¬ s.tck.tapCount < 12000 by omega,
    hhigh, State.tapped, State.mapTck]

/-! ### Refusals and the else gate (R157) -/

section Dispatched

variable {d : Dispatch} {g : GateNo}

theorem State.gateRefusal_limit (h : s.tbm.gateLimit ≤ g) : s.gateRefusal d g = some .limit := by
  rw [State.gateRefusal, if_pos h]

theorem State.gateRefusal_notPresent (h : g.val < s.tbm.gateLimit) (hp : (s.tbm.gate g).present = false) :
    s.gateRefusal d g = some .notPresent := by
  rw [State.gateRefusal, if_neg (not_le.mpr h), if_pos (by simp [hp])]

theorem State.gateRefusal_level (h : g.val < s.tbm.gateLimit) (hp : (s.tbm.gate g).present = true)
    (hl : d.source.level < (s.tbm.gate g).level) : s.gateRefusal d g = some .level := by
  rw [State.gateRefusal, if_neg (not_le.mpr h), if_neg (by simp [hp]), if_pos hl]

theorem State.gateRefusal_none (h : g.val < s.tbm.gateLimit) (hp : (s.tbm.gate g).present = true)
    (hl : (s.tbm.gate g).level ≤ d.source.level) : s.gateRefusal d g = none := by
  rw [State.gateRefusal, if_neg (not_le.mpr h), if_neg (by simp [hp]), if_neg (not_lt.mpr hl)]

theorem State.dispatch_refused {c : Code} (h : s.gateRefusal d g = some c) : s.dispatch d g = (s, c) := by
  simp only [State.dispatch, h]

theorem State.dispatch_acts (h : s.gateRefusal d g = none)
    (hc : s.conditionHolds (s.tbm.gate g).condition = true) :
    s.dispatch d g = s.gateAction g (s.tbm.gate g) d := by
  simp only [State.dispatch, h, hc, if_true]

theorem State.dispatch_skipped (h : s.gateRefusal d g = none)
    (hc : s.conditionHolds (s.tbm.gate g).condition = false) (he : (s.tbm.gate g).elseGate = none) :
    s.dispatch d g = (s, .skipped) := by
  simp only [State.dispatch, h, hc, Bool.false_eq_true, if_false, he]

theorem State.dispatch_else (h : s.gateRefusal d g = none)
    (hc : s.conditionHolds (s.tbm.gate g).condition = false) {e : GateNo}
    (he : (s.tbm.gate g).elseGate = some e) : s.dispatch d g = s.dispatchElse d e := by
  simp only [State.dispatch, h, hc, Bool.false_eq_true, if_false, he]

theorem State.dispatchElse_refused {e : GateNo} {c : Code} (h : s.gateRefusal d e = some c) :
    s.dispatchElse d e = (s, c) := by
  simp only [State.dispatchElse, h]

theorem State.dispatchElse_skipped {e : GateNo} (h : s.gateRefusal d e = none)
    (hc : s.conditionHolds (s.tbm.gate e).condition = false) : s.dispatchElse d e = (s, .skipped) := by
  simp only [State.dispatchElse, h, hc, Bool.false_eq_true, if_false]

theorem State.dispatchElse_acts {e : GateNo} (h : s.gateRefusal d e = none)
    (hc : s.conditionHolds (s.tbm.gate e).condition = true) : s.dispatchElse d e = s.dispatch d e := by
  rw [State.dispatch_acts h hc]
  simp only [State.dispatchElse, h, hc, if_true]

/-! ### Gate actions (R161–R168) -/

theorem State.cueOpGate_of {gate : Gate} {op : CueOp} (h : cueOpOf gate.argA = some op) :
    s.cueOpGate gate = s.cueOp op := by
  simp only [State.cueOpGate, h]

theorem State.gateAction_scene {gate : Gate}
    (h : gate.kind = .scene ∨ gate.kind = .momentary ∧ d.switch ≠ none ∧ d.down = false) :
    s.gateAction g gate d = s.baseSwitch (gateRequest g gate gate.quantize d) := by
  rcases h with h | ⟨h, hswitch, hdown⟩
  · simp only [State.gateAction, h]
    rfl
  · have hup : d.footUp = true := by
      simp [Dispatch.footUp, hdown, Option.isSome_iff_ne_none.mpr hswitch]
    simp only [State.gateAction, h, State.momentaryGate, hup, if_true]
    rfl

theorem State.gateAction_momentary {gate : Gate} (h : gate.kind = .momentary)
    (hup : ¬ (d.switch ≠ none ∧ d.down = false)) :
    s.gateAction g gate d = s.momentaryPush g gate d := by
  have hup : d.footUp = false := by
    by_contra hn
    simp [Dispatch.footUp] at hn
    exact hup ⟨Option.isSome_iff_ne_none.mp hn.1, hn.2⟩
  simp only [State.gateAction, h, State.momentaryGate, hup, Bool.false_eq_true, if_false]

theorem State.gateAction_pop {gate : Gate} (h : gate.kind = .pop) :
    s.gateAction g gate d = s.gatePop g d := by
  simp only [State.gateAction, h]

theorem State.gateAction_tuner {gate : Gate} (h : gate.kind = .tuner) :
    s.gateAction g gate d = s.tunerGate g d := by
  simp only [State.gateAction, h]

theorem State.gateAction_toggle {gate : Gate} (h : gate.kind = .toggleStage) :
    s.gateAction g gate d = s.toggleStage gate.argA := by
  simp only [State.gateAction, h]

theorem State.gateAction_cueStart {gate : Gate} (h : gate.kind = .cueStart) :
    s.gateAction g gate d = s.cueStartGate gate d := by
  simp only [State.gateAction, h]

theorem State.gateAction_cueOp {gate : Gate} (h : gate.kind = .cueOp) {op : CueOp}
    (hop : cueOpOf gate.argA = some op) : s.gateAction g gate d = s.cueOp op := by
  simp only [State.gateAction, h]
  exact State.cueOpGate_of hop

theorem State.gateAction_tap {gate : Gate} (h : gate.kind = .tap) :
    s.gateAction g gate d = s.tapEvent d.source d.tag := by
  simp only [State.gateAction, h]

theorem State.momentaryPush_full (h : 4 ≤ s.swu.stack.length) (gate : Gate) :
    s.momentaryPush g gate d = (s, .stackFull) :=
  if_pos h

/-- A MOMENTARY gate that pushes, and takes its entry back where its request is refused. -/
theorem State.momentaryPush_pushes (h : s.swu.stack.length < 4) (gate : Gate) :
    let r := (s.stacked (s.pushedEntry .momentary d.owner)).switchRequest (gateRequest g gate .none d)
    s.momentaryPush g gate d =
      if r.2 = .notPresent ∨ r.2 = .busy then
        ({ r.1 with swu := { r.1.swu with stack := s.swu.stack } }, r.2)
      else r := by
  intro r
  have hstack : r.1.swu.stack = s.swu.stack ++ [s.pushedEntry .momentary d.owner] :=
    (State.switchRequest_frame _ _).2.2.2.2.2.2.2.2.2.2
  have hpush := s.push_momentary d.owner
  rw [State.momentaryPush, Config.stackDepth, if_neg (not_le.mpr h)]
  dsimp only
  rw [hpush]
  refine if_congr Iff.rfl ?_ rfl
  rw [State.dropTop_eq hstack]
  simp [State.without, State.pushedEntry, r]

theorem State.tunerGate_full (he : s.engaged = false) (h : 4 ≤ s.swu.stack.length) :
    s.tunerGate g d = (s, .stackFull) := by
  rw [State.tunerGate, Config.stackDepth, if_neg (by simp [he]), if_pos h]

theorem State.tunerGate_pushes (he : s.engaged = false) (h : s.swu.stack.length < 4) :
    s.tunerGate g d = (s.push .tuner d.owner, .ok) := by
  rw [State.tunerGate, Config.stackDepth, if_neg (by simp [he]), if_neg (not_le.mpr h)]

theorem State.engaged_of_mem {e : StackEntry} (h : e ∈ s.swu.stack) (he : e.reason = .tuner) :
    s.engaged = true := by
  rw [State.engaged, List.any_eq_true]
  exact ⟨e, h, by simp [he]⟩

theorem State.tunerGate_pops {es : List StackEntry} {e : StackEntry} (h : s.swu.stack = es ++ [e])
    (he : e.reason = .tuner) : s.tunerGate g d = s.gatePop g d := by
  rw [State.tunerGate, if_pos (State.engaged_of_mem (by simp [h]) he), if_pos]
  simp [h, he]

/-- A TUNER entry below the top is removed, and its saved scene passes to the entry above. -/
theorem State.tunerGate_removes {es es' : List StackEntry} {e a : StackEntry}
    (h : s.swu.stack = es ++ e :: a :: es') (he : e.reason = .tuner)
    (hother : ∀ e' ∈ es ++ a :: es', e'.reason ≠ .tuner) :
    s.tunerGate g d = (s.without (es ++ { a with saved := e.saved } :: es') e, .ok) := by
  have htop : ¬ (s.swu.stack.getLast?.any fun e => e.reason == .tuner) = true := by
    rw [h, List.getLast?_append_cons, List.getLast?_cons_cons]
    rw [Option.any_eq_true]
    rintro ⟨x, hx, hreason⟩
    exact hother x (List.mem_append_right _ (List.mem_of_getLast? hx)) (by simpa using hreason)
  have hdrop : dropInherit (fun e => e.reason == .tuner) s.swu.stack =
      es ++ { a with saved := e.saved } :: es' := by
    rw [h]
    exact dropInherit_split _ es e a es'
      (fun x hx => by simpa using hother x (List.mem_append_left _ hx)) (by simp [he])
  rw [State.tunerGate, if_pos (State.engaged_of_mem (by simp [h]) he), if_neg htop]
  refine congrArg (·, Code.ok) ?_
  calc s.dropLower (fun e => e.reason == .tuner)
      = (s.mapSwu fun u => { u with stack := es ++ { a with saved := e.saved } :: es' }).followTuner
          s.tunerState :=
        congrArg (fun st => (s.mapSwu fun u => { u with stack := st }).followTuner s.tunerState) hdrop
    _ = _ := State.followTuner_removed _ e s ⟨es, a :: es', h, by simp⟩

theorem State.cueStartGate_of {gate : Gate} {l : Fin 16} (h : l.val = gate.argA) :
    s.cueStartGate gate d = s.cueStart l gate.argB d.tag := by
  have hlt : gate.argA < 16 := h ▸ l.isLt
  obtain rfl : l = ⟨gate.argA, hlt⟩ := Fin.ext h
  rw [State.cueStartGate, dif_pos hlt]

theorem State.cueStart_absent {l : Fin 16} (h : s.tbm.cueStart l = none) (n : Nat) (tag : Byte) :
    s.cueStart l n tag = (s, .notPresent) := by
  simp only [State.cueStart, h]

theorem State.cueStart_present {l : Fin 16} {start : Nat} (h : s.tbm.cueStart l = some start) (n : Nat)
    (tag : Byte) :
    s.cueStart l n tag = ({ s.stopList with csq := { s.stopList.csq with
      waiting := some { list := l, start := start, countIn := n, fresh := true }, tag := tag } },
      .accepted) := by
  simp only [State.cueStart, h]
  rfl

end Dispatched

theorem sceneOf_of_val {n : Nat} {g : GateNo} (h : g.val = n) : sceneOf n = some g := by
  subst h
  exact dif_pos g.isLt

theorem switchGateEffect_badLength {m : Message} (h : m.body ≠ []) (s : State) :
    switchGateEffect m s = (s, ack .badLength) := by
  unfold switchGateEffect
  split
  · next hb => exact absurd hb h
  · rfl

theorem switchGateEffect_noGate {m : Message} (h : m.body = []) (ha : 128 ≤ m.a0) (s : State) :
    switchGateEffect m s = (s, ack .limit) := by
  have hg : sceneOf m.a0 = none := dif_neg (by omega)
  simp only [switchGateEffect, h, hg]

theorem switchGateEffect_of_gate {m : Message} (h : m.body = []) {g : GateNo} (hg : g.val = m.a0)
    (s : State) :
    switchGateEffect m s = answer (s.dispatch (controllerDispatch m.tag) g) := by
  simp only [switchGateEffect, h, sceneOf_of_val hg]

/-- A SWITCH_GATE meets no level: the source CONTROLLER has level 3 (R157, R160). -/
theorem Tbm.gate_level_le (tb : Tbm) (g : GateNo) : (tb.gate g).level ≤ Source.controller.level :=
  Nat.le_of_lt_succ (Nat.mod_lt _ (by decide))

/-- Settles O17. -/
theorem switchGateDispatches : Obligations.SwitchGateDispatches := by
  refine ⟨fun m rest s h => ?_, fun d g s => ?_⟩
  · refine ⟨fun hb => h.answers (switchGateEffect_badLength hb _) rfl,
      fun hb ha => h.answers (switchGateEffect_noGate hb ha _) rfl, ?_⟩
    intro g hb hg gate
    have heff := switchGateEffect_of_gate hb hg (s.removeHead rest)
    have hanswers : ∀ {c : Code}, (s.removeHead rest).dispatch (controllerDispatch m.tag) g =
        (s.removeHead rest, c) → exec .switchGate s = .next (s.answered m rest (ack c)) := fun hd =>
      h.answers (heff.trans (by rw [hd]; rfl)) rfl
    have hlevel : ∀ e : GateNo, ((s.removeHead rest).tbm.gate e).level ≤
        (controllerDispatch m.tag).source.level := Tbm.gate_level_le _
    refine ⟨(h.run switchGateEffect).trans (by rw [heff]; rfl),
      fun hlim => hanswers (State.dispatch_refused (State.gateRefusal_limit hlim)),
      fun hlt hp => hanswers (State.dispatch_refused (State.gateRefusal_notPresent hlt hp)), ?_⟩
    intro hlt hp
    have hnone := State.gateRefusal_none (s := s.removeHead rest) hlt hp (hlevel g)
    refine ⟨fun hc => ⟨fun he => hanswers (State.dispatch_skipped hnone hc he), fun e he => ?_⟩, fun hc => ?_⟩
    · have helse := State.dispatch_else hnone hc he
      exact ⟨fun hlim =>
          hanswers (helse.trans (State.dispatchElse_refused (State.gateRefusal_limit hlim))),
        fun hlt hp =>
          hanswers (helse.trans (State.dispatchElse_refused (State.gateRefusal_notPresent hlt hp)))⟩
    · have hacts : (s.removeHead rest).dispatch (controllerDispatch m.tag) g =
          (s.removeHead rest).gateAction g gate (controllerDispatch m.tag) := State.dispatch_acts hnone hc
      refine ⟨fun hk hstack => hanswers ?_, fun hk hfull => hanswers ?_, fun hk heng hroom => ?_⟩
      · rw [hacts, State.gateAction_pop hk]
        exact State.pop_empty (s := s.removeHead rest) hstack _
      · rw [hacts]
        rcases hk with hk | ⟨hk, heng⟩
        · rw [State.gateAction_momentary hk (by rintro ⟨hsw, -⟩; exact hsw rfl)]
          exact State.momentaryPush_full (s := s.removeHead rest) hfull _
        · rw [State.gateAction_tuner hk]
          exact State.tunerGate_full (s := s.removeHead rest) heng hfull
      · rw [hacts, State.gateAction_tuner hk, State.tunerGate_pushes (by exact heng) (by exact hroom),
          State.push_tuner (by exact heng)] at heff
        exact h.answers_with heff rfl rfl
  · intro gate
    refine ⟨fun hlim => State.dispatch_refused (State.gateRefusal_limit hlim),
      fun hlt hp => State.dispatch_refused (State.gateRefusal_notPresent hlt hp), fun hlt hp => ?_⟩
    refine ⟨fun hl => State.dispatch_refused (State.gateRefusal_level hlt hp hl), fun hl hc => ?_,
      fun hl hc => ?_⟩
    · have hnone := State.gateRefusal_none hlt hp hl
      refine ⟨fun he => State.dispatch_skipped hnone hc he, fun e he => ?_⟩
      rw [State.dispatch_else hnone hc he]
      refine ⟨fun hlim => State.dispatchElse_refused (State.gateRefusal_limit hlim),
        fun hlt hp => State.dispatchElse_refused (State.gateRefusal_notPresent hlt hp), fun hlt hp =>
        ⟨fun hl => State.dispatchElse_refused (State.gateRefusal_level hlt hp hl), fun hl => ?_⟩⟩
      have hnone := State.gateRefusal_none hlt hp hl
      exact ⟨State.dispatchElse_skipped hnone, State.dispatchElse_acts hnone⟩
    · have hacts : s.dispatch d g = s.gateAction g gate d :=
        State.dispatch_acts (State.gateRefusal_none hlt hp hl) hc
      intro request footUp pushed removed
      refine ⟨fun hk => hacts.trans (State.gateAction_scene hk), fun hk hup => ⟨fun hfull => ?_, fun hroom => ?_⟩,
      fun hk hstack => ?_,
        fun es e hstack hk => ?_, fun es e a es' hstack he hother hk => ?_,
        fun hk heng => ⟨fun hfull => ?_, fun hroom => ?_⟩, fun hk => ?_, fun hk l hl => ?_, fun hk => ?_,
        fun hk => ?_⟩
      · exact hacts.trans <| (State.gateAction_momentary hk hup).trans (State.momentaryPush_full hfull _)
      · exact hacts.trans <| (State.gateAction_momentary hk hup).trans (State.momentaryPush_pushes hroom _)
      · exact hacts.trans <| (State.gateAction_pop hk).trans (State.pop_empty hstack _)
      · have hpop : s.gateAction g gate d = s.gatePop g d := hk.elim State.gateAction_pop fun hk =>
          (State.gateAction_tuner hk.1).trans (State.tunerGate_pops hstack hk.2)
        exact hacts.trans <| hpop.trans (State.pop_eq hstack _)
      · exact hacts.trans <| (State.gateAction_tuner hk).trans (State.tunerGate_removes hstack he hother)
      · exact hacts.trans <| (State.gateAction_tuner hk).trans (State.tunerGate_full heng hfull)
      · refine hacts.trans <| (State.gateAction_tuner hk).trans ((State.tunerGate_pushes heng hroom).trans ?_)
        rw [State.push_tuner heng]
        rfl
      · have htoggle : s.dispatch d g = s.toggleStage gate.argA := hacts.trans <| State.gateAction_toggle hk
        exact ⟨fun hc => htoggle.trans (State.toggleStage_idle hc _), fun c hc =>
          ⟨fun hn => htoggle.trans (State.toggleStage_noStage hc (Sce.liveStage_none hc hn)),
          fun st hn hst => htoggle.trans (State.toggleStage_of_stage hc hn hst)⟩⟩
      · have hstart : s.dispatch d g = s.cueStart l gate.argB d.tag :=
          hacts.trans <| (State.gateAction_cueStart hk).trans (State.cueStartGate_of hl)
        exact ⟨fun hnone => hstart.trans (State.cueStart_absent hnone _ _), fun start hsome =>
          hstart.trans (State.cueStart_present hsome _ _)⟩
      · intro running moved held
        have hop : ∀ {op : CueOp}, cueOpOf gate.argA = some op → s.dispatch d g = s.cueOp op := fun ho =>
          hacts.trans (State.gateAction_cueOp hk ho)
        refine ⟨fun ha => (hop (op := .advance) (by rw [ha]; rfl)).trans (State.holdOp_eq .advance s),
          fun ha => (hop (op := .skip) (by rw [ha]; rfl)).trans (State.holdOp_eq .skip s),
          fun ha => (hop (by rw [ha]; rfl)).trans rfl,
          fun ha => (hop (by rw [ha]; rfl)).trans rfl, fun ha => (hop (by rw [ha]; rfl)).trans rfl,
          fun ha => (hop (by rw [ha]; rfl)).trans (State.cueOp_stop s)⟩
      · have htap : s.dispatch d g = s.tapEvent d.source d.tag := hacts.trans <| State.gateAction_tap hk
        exact ⟨fun ho => htap.trans (State.tapEvent_opens ho _ _),
          fun ho hc => htap.trans (State.tapEvent_early ho hc _ _),
          fun ho hc => htap.trans (State.tapEvent_late ho hc _ _),
          fun ho hlow hhigh => htap.trans (State.tapEvent_joins ho hlow hhigh _ _)⟩

end Sys2Proof.Machine


/-! PROOF. The commands of the tempo clock and the cue sequencer: TEMPO, TAP, CUE_START and CUE_OP
(R173, R174, R176, R177, R184, R189). -/

namespace Sys2Proof.Machine

variable {s : State}

theorem State.Settled.due (h : s.Settled) : s.csq.due = none := by
  have hq := h.quiet
  simp only [State.quiet, Bool.and_eq_true] at hq
  exact Option.isNone_iff_eq_none.mp hq.2

/-! ### TEMPO (R173, R174) -/

theorem tempoEffect_badLength {m : Message} (h : m.body.length ≠ 1) (s : State) :
    tempoEffect m s = (s, ack .badLength) := by
  unfold tempoEffect
  split
  · next hb => exact absurd (by rw [hb]; rfl) h
  · rfl

theorem tempoEffect_of_body {m : Message} {w : Word24} (h : m.body = [w]) (s : State) :
    tempoEffect m s = (s.takePeriod (periodOf (bits 15 0 w)), ack .ok) := by
  simp only [tempoEffect, h]

/-- At the start of a beat a new period raises no boundary (R173). -/
theorem State.takePeriod_onBeat (h : s.tck.phase = 0) (P : Nat) :
    (s.takePeriod P).swu = s.swu ∧ (s.takePeriod P).csq = s.csq ∧
      (s.takePeriod P).tck.burst = s.tck.burst ∧ (s.takePeriod P).tck.burstPos = s.tck.burstPos := by
  simp [State.takePeriod, h, State.mapTck]

/-- What a new period leaves of the state that takes it (R109, R119, R173). -/
theorem State.takePeriod_leaves (P : Nat) (s : State) (hdue : s.csq.due = none) :
    let t := s.takePeriod P
    (∀ l, t.dlu.lines.get l = s.sce.handedLine P l (s.dlu.lines.get l)) ∧
    t.dlu = { s.dlu with lines := t.dlu.lines } ∧
    t.tck.period = P ∧ t.tck.phase = 0 ∧ t.tck.tapOpen = false ∧ t.tck.tapHistory = [] ∧
    t.tck.tapCount = s.tck.tapCount ∧ t.tck.beat = s.tck.beat ∧ t.tck.meter = s.tck.meter ∧
    t.tck.clickMode = s.tck.clickMode ∧ t.tck.accentLevel = s.tck.accentLevel ∧
    t.tck.normalLevel = s.tck.normalLevel ∧ t.tbm = s.tbm ∧ t.stg = s.stg ∧ t.sce = s.sce ∧
    t.pmn = s.pmn ∧ t.tun = s.tun ∧ t.sli = s.sli ∧
    (s.tck.phase = 0 → t.swu = s.swu ∧ t.csq = s.csq ∧ t.tck.burst = s.tck.burst ∧
      t.tck.burstPos = s.tck.burstPos) ∧
    (s.tck.phase ≠ 0 → s.BoundaryRaised False s.tck.beat t) := by
  obtain ⟨hsli, -, htbm, hstg, hsce, hpmn, htun, -⟩ := s.takePeriod_frame P
  obtain ⟨hdlu, hlines⟩ := s.takePeriod_dlu P
  have htck := s.takePeriod_tck P
  have hstill := State.takePeriod_onBeat (s := s) (P := P)
  have hraised := State.takePeriod_raised hdue P
  generalize s.takePeriod P = t at *
  exact ⟨hlines, hdlu, (congrArg Tck.period htck :), (congrArg Tck.phase htck :), (congrArg Tck.tapOpen htck :),
    (congrArg Tck.tapHistory htck :), (congrArg Tck.tapCount htck :), (congrArg Tck.beat htck :),
    (congrArg Tck.meter htck :), (congrArg Tck.clickMode htck :), (congrArg Tck.accentLevel htck :),
    (congrArg Tck.normalLevel htck :), htbm, hstg, hsce, hpmn, htun, hsli, hstill,
    hraised⟩

/-- Settles O20. -/
theorem tempoSetsThePeriod : Obligations.TempoSetsThePeriod := by
  intro m rest s h
  refine ⟨fun hb => h.answers (tempoEffect_badLength hb _) rfl, fun w hb => ?_⟩
  intro tempo period
  have hperiod : periodOf (bits 15 0 w) = period := rfl
  have hrange := periodOf_range (bits 15 0 w)
  have heff := tempoEffect_of_body hb (s.removeHead rest)
  rw [hperiod] at hrange heff
  clear_value period
  obtain ⟨hlines, hdlu, hP, hphase, hopen, hhistory, hcount, hbeat, hmeter, hmode, haccent, hnormal, htbm,
    hstg, hsce, hpmn, htun, hsli, hstill, hraised⟩ :=
    (s.removeHead rest).takePeriod_leaves period h.settled.due
  have hcch := (State.takePeriod_frame (s.removeHead rest) period).2.1
  generalize (s.removeHead rest).takePeriod period = u at *
  exact ⟨_, h.answers_with heff hcch rfl, rfl, hlines, hdlu, hP, hrange.1,
    hrange.2, hphase, hopen, hhistory, hcount, hbeat, hmeter, hmode, haccent, hnormal, htbm, hstg, hsce,
    hpmn, htun, hsli, hstill, fun hp => (hraised hp).congr rfl rfl rfl rfl rfl rfl rfl rfl rfl rfl⟩

/-! ### TAP (R176, R177) -/

/-- A boundary leaves the clock, but for the click burst (R172). -/
theorem State.raiseBoundary_tck (a b : Bool) (s : State) :
    (s.raiseBoundary a b).tck = { s.tck with
      burst := (s.raiseBoundary a b).tck.burst, burstPos := (s.raiseBoundary a b).tck.burstPos } := by
  unfold State.raiseBoundary
  dsimp only
  split
  · rfl
  · rw [State.clickBoundary_eq]
    split <;> rfl

/-- The beat that a tap moves on to (R177). -/
def Tck.tapBeat (t : Tck) : Nat :=
  if t.phase ≠ 0 ∧ t.period ≤ 2 * t.phase then t.nextBeat else t.beat

/-- The state behind the boundary that a tap raises (R177). -/
def State.tapBoundary (P : Nat) (s : State) : State :=
  let u := s.mapTck fun t => { t with period := P }
  if s.tck.phase = 0 then u
  else if s.tck.period ≤ 2 * s.tck.phase then u.advancingBoundary else u.restartBoundary

theorem State.tapPeriod_eq (src : Source) (tag : Byte) (s : State) :
    s.tapPeriod src tag =
      ((s.tapBoundary (s.tck.tapHistory.sum / s.tck.tapHistory.length)).syncLines.tempoReport src tag
        (decide (s.tck.phase ≠ 0 ∧ s.tck.period ≤ 2 * s.tck.phase))) := by
  rw [Nat.mul_comm 2]
  unfold State.tapPeriod State.tapBoundary
  by_cases hp : s.tck.phase = 0
  · simp [hp]
  · by_cases hl : s.tck.period ≤ s.tck.phase * 2 <;> simp [hp, hl, Nat.mul_comm 2]

theorem State.tapBoundary_tck (P : Nat) (s : State) :
    (s.tapBoundary P).tck = { s.tck with
      period := P, phase := 0, beat := s.tck.tapBeat
      burst := (s.tapBoundary P).tck.burst, burstPos := (s.tapBoundary P).tck.burstPos } := by
  unfold State.tapBoundary Tck.tapBeat
  by_cases hp : s.tck.phase = 0
  · simp only [hp, if_true, ne_eq, not_true_eq_false, false_and, if_false]
    exact congrArg (fun n => { s.tck with period := P, phase := n }) hp
  · by_cases hl : s.tck.period ≤ 2 * s.tck.phase
    · simp only [hp, hl, if_false, if_true, ne_eq, not_false_eq_true, and_self]
      exact State.raiseBoundary_tck _ _ _
    · simp only [hp, hl, if_false, ne_eq, not_false_eq_true, and_false]
      exact State.raiseBoundary_tck _ _ _

theorem State.tapBoundary_frame (P : Nat) (s : State) :
    (s.tapBoundary P).cch = s.cch ∧ (s.tapBoundary P).dlu = s.dlu ∧ (s.tapBoundary P).sce = s.sce := by
  unfold State.tapBoundary
  dsimp only
  (repeat' split) <;> simp

theorem State.tapped_of_open (h : s.tck.tapOpen = true) (history : List Nat) :
    s.tapped history = { s with tck := { s.tck with tapCount := 0, tapHistory := history } } := by
  rw [State.tapped, ← h]

/-- The channel behind reports rests on the channel before them. -/
theorem State.reporting_cch {t : State} (h : t.cch = s.cch) (rs : List Record) :
    (t.reporting rs).cch = (s.reporting rs).cch := by
  simp only [State.reporting, h]

theorem tapEffect_badLength {m : Message} (h : m.body ≠ []) (s : State) :
    tapEffect m s = (s, ack .badLength) := by
  unfold tapEffect
  split
  · next hb => exact absurd hb h
  · rfl

theorem tapEffect_of_body {m : Message} (h : m.body = []) (s : State) :
    tapEffect m s = answer (s.tapEvent .controller m.tag) := by
  simp only [tapEffect, h]

/-- What a tap that sets a period leaves of the state that takes it (R109, R119, R177). -/
theorem State.tapPeriod_leaves (src : Source) (tag : Byte) (s : State) (hdue : s.csq.due = none) :
    let P := s.tck.tapHistory.sum / s.tck.tapHistory.length
    let late := s.tck.phase ≠ 0 ∧ s.tck.period ≤ 2 * s.tck.phase
    let t := s.tapPeriod src tag
    t.cch = { s.cch with outbox := s.cch.outbox ++
      [tempoRecord src tag (decide late) s.tck.tapHistory.length P] } ∧
    (∀ l, t.dlu.lines.get l = s.sce.handedLine P l (s.dlu.lines.get l)) ∧
    t.dlu = { s.dlu with lines := t.dlu.lines } ∧
    (s.tck.phase = 0 → t.swu = s.swu ∧ t.csq = s.csq ∧ t.tck.burst = s.tck.burst ∧
      t.tck.burstPos = s.tck.burstPos) ∧
    (s.tck.phase ≠ 0 → s.BoundaryRaised late s.tck.tapBeat t) ∧
    t.tck = { s.tck with
      period := P, phase := 0, beat := s.tck.tapBeat, burst := t.tck.burst, burstPos := t.tck.burstPos } := by
  intro P late t
  obtain ⟨hcch, hdlu, hsce⟩ := s.tapBoundary_frame P
  have htck := s.tapBoundary_tck P
  have ht : t = ((s.tapBoundary P).syncLines.tempoReport src tag (decide late)) := s.tapPeriod_eq src tag
  have hstill : s.tck.phase = 0 → s.tapBoundary P = s.mapTck fun t => { t with period := P } := fun hp => by
    simp [State.tapBoundary, hp]
  have hperiod : (s.tapBoundary P).tck.period = P := (congrArg Tck.period htck :)
  have hhistory : (s.tapBoundary P).tck.tapHistory = s.tck.tapHistory := (congrArg Tck.tapHistory htck :)
  have hd : t.dlu = (s.tapBoundary P).syncLines.dlu := by
    rw [ht]
    simp
  refine ⟨?_, fun l => ?_, ?_, fun hp => ?_, fun hp => ?_, ?_⟩
  · rw [ht]
    simp [State.tempoReport, State.raise, State.mapCch, tempoRecord, hcch, hperiod, hhistory]
  · rw [hd, State.syncLines_handed, hsce, hperiod, hdlu]
  · obtain ⟨ls, hls⟩ := (s.tapBoundary P).syncLines_dlu
    rw [hd, hls, hdlu]
  · rw [ht]
    simp [hstill hp, State.mapTck]
  · obtain ⟨hlate, hearly⟩ := State.tapPeriod_raised hdue src tag hp
    by_cases hl : s.tck.period ≤ 2 * s.tck.phase
    · rw [show late = True from eq_true ⟨hp, hl⟩, Tck.tapBeat, if_pos ⟨hp, hl⟩]
      exact hlate hl
    · rw [show late = False from eq_false fun h => hl h.2, Tck.tapBeat, if_neg fun h => hl h.2]
      exact hearly hl
  · rw [ht]
    simpa using htck

/-- Settles O21. -/
theorem tapSeriesJudgesIntervals : Obligations.TapSeriesJudgesIntervals := by
  intro m rest s h
  refine ⟨fun hb => h.answers (tapEffect_badLength hb _) rfl, fun hb => ?_⟩
  have heff := tapEffect_of_body hb (s.removeHead rest)
  refine ⟨fun ho => ?_, fun ho hc => ?_, fun ho hc => ?_, fun ho hlow hhigh => ?_⟩
  · rw [State.tapEvent_opens (s := s.removeHead rest) ho] at heff
    exact h.answers_with heff rfl rfl
  · rw [State.tapEvent_early (s := s.removeHead rest) ho hc] at heff
    exact h.answers heff rfl
  · rw [State.tapEvent_late (s := s.removeHead rest) ho hc] at heff
    rw [State.tapped_of_open (by exact ho)] at heff
    exact h.answers_with heff rfl rfl
  · intro last late beat
    rw [State.tapEvent_joins (s := s.removeHead rest) ho hlow hhigh,
      show (s.removeHead rest).tck = s.tck from rfl] at heff
    set u := (s.removeHead rest).tapped last with hu
    replace heff : tapEffect m (s.removeHead rest) = (u.tapPeriod .controller m.tag, ack .ok) := heff
    obtain ⟨hcch, hlines, hdlu, hstill, hraised, htck⟩ :=
      u.tapPeriod_leaves .controller m.tag (by exact h.settled.due)
    obtain ⟨hsli, htbm, hstg, hsce, hpmn, htun, -⟩ := u.tapPeriod_frame .controller m.tag
    have hout : u.cch.outbox = [] := h.settled.reported
    rw [hout, List.nil_append] at hcch
    have hbeat : u.tck.tapBeat = beat := by
      change (if late then _ else _) = if ¬ late then _ else _
      by_cases hl : late
      · rw [if_pos hl, if_neg (not_not.mpr hl)]
        rfl
      · rw [if_neg hl, if_pos hl]
        rfl
    rw [hbeat] at hraised htck
    clear_value beat
    have hexec := h.answers_reporting heff hcch rfl
    generalize u.tapPeriod .controller m.tag = v at *
    refine ⟨_, hexec, State.reporting_cch rfl _, hlines, hdlu, hstill,
      fun hp => (hraised hp).congr rfl rfl rfl rfl rfl rfl rfl rfl rfl rfl, ?_⟩
    refine ⟨?_, ?_, ?_, ?_, ?_, ?_, ?_, ?_, ?_, ?_, htbm, hstg, hsce, hpmn, htun, hsli⟩
    · exact (congrArg Tck.tapOpen htck :)
    · exact (congrArg Tck.tapCount htck :)
    · exact (congrArg Tck.tapHistory htck :)
    · exact (congrArg Tck.period htck :)
    · exact (congrArg Tck.phase htck :)
    · exact (congrArg Tck.beat htck :)
    · exact (congrArg Tck.meter htck :)
    · exact (congrArg Tck.clickMode htck :)
    · exact (congrArg Tck.accentLevel htck :)
    · exact (congrArg Tck.normalLevel htck :)

/-! ### The end of a list by STOP (R54, R189) -/

/-- The state behind the end of a list: the sequencer in IDLE, the cue pins cleared, the tables written and
the report queued. -/
def State.listStopped (c : Csq) (tb : Tbm) (r : Record) (s : State) : State :=
  { s with
    csq := { c with state := .idle, current := none, lookAhead := none, heldOp := none }
    tbm := tb
    stg := { s.stg with slots := vmap (fun t => { t with cuePin := false }) s.stg.slots }
    cch := { s.cch with outbox := s.cch.outbox ++ [r] } }

/-- The tables once the remaining beats of record `i` are its residue, where RESIDUE is set (R54). -/
def Tbm.withResidue (tb : Tbm) (i n : Nat) : Tbm :=
  if (tb.cue i).residue then
    { tb with mem := tb.mem.write (entryAddr .cue i 1) (payload ((tb.cue i).length * 2 ^ 12 + n)) }
  else tb

theorem State.listStopped_cch (h : s.cch.outbox = []) (c : Csq) (tb : Tbm) (r : Record) :
    (s.listStopped c tb r).cch = { s.cch with outbox := [r] } := by
  simp [State.listStopped, h]

theorem State.listStopped_idle {c : Csq} (h : c.state = .idle) (tb : Tbm) (r : Record) (s : State) :
    s.listStopped c tb r = { s with
      csq := { c with current := none, lookAhead := none, heldOp := none }
      tbm := tb
      stg := { s.stg with slots := vmap (fun t => { t with cuePin := false }) s.stg.slots }
      cch := { s.cch with outbox := s.cch.outbox ++ [r] } } := by
  rw [State.listStopped, ← h]

theorem State.listEnd_eq (r : EndReason) (i beats : Nat) (s : State) :
    s.listEnd r i beats = s.listStopped s.csq s.tbm
      (cueRecord s.csq.tag .ok 2 r.value s.csq.list i (s.tbm.cue i).scene beats false 0) := rfl

theorem State.leaveResidue_eq (i : Nat) (s : State) :
    s.leaveResidue i = { s with tbm := s.tbm.withResidue i s.csq.remaining } := by
  unfold State.leaveResidue Tbm.withResidue
  split
  · rw [← Nat.shiftLeft_eq]
    rfl
  · rfl

theorem State.stopList_nothing (h : s.csq.state = .idle) (hw : s.csq.waiting = none) : s.stopList = s := by
  simp only [State.stopList, h, hw]

theorem State.stopList_waiting (h : s.csq.state = .idle) {w : WaitingStart} (hw : s.csq.waiting = some w) :
    s.stopList = s.listStopped { s.csq with waiting := none, list := w.list } s.tbm
      (cueRecord s.csq.tag .ok 2 3 w.list w.start (s.tbm.cue w.start).scene 0 false 0) := by
  simp only [State.stopList, h, hw]
  rfl

theorem State.stopList_countIn (h : s.csq.state = .countIn) {i : Nat} (hi : s.csq.current = some i) :
    s.stopList = s.listStopped s.csq s.tbm
      (cueRecord s.csq.tag .ok 2 3 s.csq.list i (s.tbm.cue i).scene 0 false 0) := by
  simp only [State.stopList, h, hi, Option.getD_some]
  rfl

theorem State.stopList_runs (h : s.csq.Runs) {i : Nat} (hi : s.csq.current = some i) :
    let tb := s.tbm.withResidue i s.csq.remaining
    s.stopList = s.listStopped s.csq tb
      (cueRecord s.csq.tag .ok 2 3 s.csq.list i (tb.cue i).scene s.csq.remaining false 0) := by
  have hstop : s.stopList = (s.leaveResidue i).listEnd .stopped i s.csq.remaining := by
    rcases h with h | h | h <;> simp only [State.stopList, h, hi]
  rw [hstop, State.listEnd_eq, State.leaveResidue_eq]
  rfl

theorem State.stopList_fifo (s : State) : s.stopList.cch.fifo = s.cch.fifo := by
  unfold State.stopList
  (repeat' split) <;> simp [State.listEnd_eq, State.listStopped]

/-- A list that runs or counts in has ended. -/
theorem State.stopList_ends (h : s.csq.state ≠ .idle) :
    s.stopList.csq.state = .idle ∧ s.stopList.csq.current = none ∧ s.stopList.csq.lookAhead = none ∧
      s.stopList.csq.heldOp = none := by
  unfold State.stopList
  (repeat' split) <;> simp_all [State.listEnd_eq, State.listStopped]

/-! ### CUE_START (R184) -/

theorem cueStartEffect_badLength {m : Message} (h : 2 ≤ m.body.length) (s : State) :
    cueStartEffect m s = (s, ack .badLength) := by
  unfold cueStartEffect
  split
  · next hb => rw [hb] at h; simp at h
  · next hb => rw [hb] at h; simp at h
  · rfl

theorem cueStartEffect_of_body {m : Message} {n : Nat}
    (h : (m.body = [] ∧ n = 0) ∨ ∃ w, m.body = [w] ∧ n = bits 2 0 w) (s : State) :
    cueStartEffect m s = s.cueStartMessage m.a0 n m.tag := by
  rcases h with ⟨hb, rfl⟩ | ⟨w, hb, rfl⟩ <;> simp only [cueStartEffect, hb]

theorem State.cueStartMessage_range {a0 n : Nat} (h : 15 < a0 ∨ 4 < n) (tag : Byte) (s : State) :
    s.cueStartMessage a0 n tag = (s, ack .range) := by
  unfold State.cueStartMessage
  split
  · rw [if_pos (by omega)]
  · rfl

theorem State.cueStartMessage_of {a0 n : Nat} {l : Fin 16} (hl : l.val = a0) (hn : n ≤ 4) (tag : Byte)
    (s : State) : s.cueStartMessage a0 n tag = answer (s.cueStart l n tag) := by
  subst hl
  rw [State.cueStartMessage, dif_pos l.isLt, if_neg (not_lt.mpr hn)]

/-- Settles O22. -/
theorem cueStartWaits : Obligations.CueStartWaits := by
  intro m rest s h
  refine ⟨fun hb => h.answers (cueStartEffect_badLength hb _) rfl, fun n hn => ?_⟩
  have heff := cueStartEffect_of_body hn (s.removeHead rest)
  refine ⟨fun hr => h.answers (heff.trans (State.cueStartMessage_range hr _ _)) rfl, fun l hl hcount => ?_⟩
  rw [State.cueStartMessage_of hl hcount] at heff
  refine ⟨fun hnone => ?_, fun start hstart => ?_⟩
  · rw [State.cueStart_absent (s := s.removeHead rest) hnone] at heff
    exact h.answers heff rfl
  · rw [State.cueStart_present (s := s.removeHead rest) hstart] at heff
    have hstopped := State.listStopped_cch (s := s.removeHead rest) h.settled.reported
    intro next
    refine ⟨⟨_, h.run cueStartEffect, ?_⟩, ?_, fun hidle hw => ?_, fun hidle old hw => ?_⟩
    · rw [heff]
      simp only [answer, State.reply_ack_eq, State.reporting_frame, State.reporting_fifo]
      refine ⟨State.stopList_fifo _, rfl, trivial, State.stopList_ends (s := s.removeHead rest), ?_⟩
      simp
    · intro ended i hi
      refine ⟨fun hruns => ?_, fun hcin => ?_⟩
      · intro cue residue written tbm
        rw [State.stopList_runs (s := s.removeHead rest) hruns hi] at heff
        exact h.answers_reporting heff (hstopped s.csq (s.tbm.withResidue i s.csq.remaining) _) rfl
      · rw [State.stopList_countIn (s := s.removeHead rest) hcin hi] at heff
        exact h.answers_reporting heff (hstopped s.csq s.tbm _) rfl
    · rw [State.stopList_nothing (s := s.removeHead rest) hidle hw] at heff
      exact h.answers_with heff rfl rfl
    · rw [State.stopList_waiting (s := s.removeHead rest) hidle hw] at heff
      have hcch := hstopped { s.csq with waiting := none, list := old.list } s.tbm
        (cueRecord s.csq.tag .ok 2 3 old.list old.start (s.tbm.cue old.start).scene 0 false 0)
      rw [State.listStopped_idle (by exact hidle)] at heff hcch
      exact h.answers_reporting heff hcch rfl

/-! ### CUE_OP (R189) -/

theorem cueOpEffect_badLength {m : Message} (h : m.body ≠ []) (op : CueOp) (s : State) :
    cueOpEffect op m s = (s, ack .badLength) := by
  unfold cueOpEffect
  split
  · next hb => exact absurd hb h
  · rfl

theorem cueOpEffect_of_body {m : Message} (h : m.body = []) (op : CueOp) (s : State) :
    cueOpEffect op m s = answer (s.cueOp op) := by
  simp only [cueOpEffect, h]

theorem advanceEffect_cases (m : Message) (s : State) :
    advanceEffect m s =
      if m.body ≠ [] then (s, ack .badLength)
      else if m.a0 = 0 then answer (s.holdOp .advance) else (s, ack .range) := by
  unfold advanceEffect
  split
  · next hb =>
    rw [if_neg (not_not.mpr hb)]
    rfl
  · next hb => rw [if_pos hb]

theorem cueOpRow_advance {a0 : Nat} (h : cueOpRow a0 = .advance) : a0 = 0 ∨ 5 < a0 := by
  by_contra hn
  have hlow : 1 ≤ a0 := by omega
  have hhigh : a0 ≤ 5 := by omega
  interval_cases a0 <;> cases h

theorem commandRow_advance {code a0 : Nat} (h : commandRow code a0 = .advance) : a0 = 0 ∨ 5 < a0 := by
  unfold commandRow at h
  split at h
  case h_24 => exact cueOpRow_advance h
  case h_2 | h_5 => split at h <;> cases h
  all_goals cases h

/-- The row ADVANCE takes an operation 0 and every operation above 5 (log 10). -/
theorem Takes.advance_a0 {m : Message} {rest : List Message} (h : Takes .advance m rest s) :
    m.a0 = 0 ∨ 5 < m.a0 := by
  have hrow := h.isRow
  unfold Message.row at hrow
  split at hrow
  · cases hrow
  · exact commandRow_advance hrow

section Operated

variable {row : MessageRow} {m : Message} {rest : List Message} {eff : Message → State → State × Reply}

/-- A held operation as the answer of its command. -/
theorem Takes.holds (h : Takes row m rest s) {op : HeldOp}
    (heff : eff m (s.removeHead rest) = answer ((s.removeHead rest).holdOp op)) :
    takeMessageRow row eff s = .next
      (if ¬ s.csq.Runs then s.answered m rest (ack .skipped)
       else if s.csq.heldOp = some op then s.answered m rest (ack .already)
       else { s.answered m rest (ack .accepted) with csq := { s.csq with heldOp := some op } }) := by
  rw [State.holdOp_eq] at heff
  by_cases hruns : s.csq.Runs
  · rw [if_neg (not_not.mpr hruns)]
    rw [if_neg (not_not.mpr (by exact hruns))] at heff
    by_cases hheld : s.csq.heldOp = some op
    · rw [if_pos hheld]
      rw [if_pos (by exact hheld)] at heff
      exact h.answers heff rfl
    · rw [if_neg hheld]
      rw [if_neg (by exact hheld)] at heff
      exact h.answers_with heff rfl rfl
  · rw [if_pos hruns]
    rw [if_pos (by exact hruns)] at heff
    exact h.answers heff rfl

/-- An operation that moves the state of the sequencer, where it applies. -/
theorem Takes.moves (h : Takes row m rest s) {p : Prop} [Decidable p] {x : CueState}
    (heff : eff m (s.removeHead rest) = answer
      (if p then (({ s.removeHead rest with csq := { s.csq with state := x } } : State), Code.ok)
       else (s.removeHead rest, .skipped))) :
    takeMessageRow row eff s = .next
      (if p then { s.answered m rest (ack .ok) with csq := { s.csq with state := x } }
       else s.answered m rest (ack .skipped)) := by
  by_cases hp : p
  · rw [if_pos hp]
    rw [if_pos hp] at heff
    exact h.answers_with heff rfl rfl
  · rw [if_neg hp]
    rw [if_neg hp] at heff
    exact h.answers heff rfl

/-- An operation with a body is refused, and else answered. -/
theorem Takes.cueOp (h : Takes row m rest s) {op : CueOp} {t : State}
    (ht : m.body = [] → takeMessageRow row (cueOpEffect op) s = .next t) :
    takeMessageRow row (cueOpEffect op) s = .next
      (if m.body ≠ [] then s.answered m rest (ack .badLength) else t) := by
  by_cases hb : m.body = []
  · rw [if_neg (not_not.mpr hb)]
    exact ht hb
  · rw [if_pos hb]
    exact h.answers (cueOpEffect_badLength hb _ _) rfl

end Operated

/-- Settles O23. -/
theorem cueOperationsByState : Obligations.CueOperationsByState := by
  intro m rest s running skipped moved held refused
  refine ⟨fun h => ?_, fun h => h.cueOp fun hb => h.holds (cueOpEffect_of_body hb _ _),
    fun h => h.cueOp fun hb => h.moves (cueOpEffect_of_body hb _ _),
    fun h => h.cueOp fun hb => h.moves (cueOpEffect_of_body hb _ _),
    fun h => h.cueOp fun hb => h.moves (cueOpEffect_of_body hb _ _), fun h => ?_⟩
  · have heff := advanceEffect_cases m (s.removeHead rest)
    by_cases hb : m.body = []
    · rw [if_neg (not_not.mpr hb)] at heff ⊢
      rcases h.advance_a0 with ha | ha
      · rw [if_neg (by omega)]
        rw [if_pos ha] at heff
        exact h.holds heff
      · rw [if_pos ha]
        rw [if_neg (by omega)] at heff
        exact h.answers heff rfl
    · rw [if_pos hb] at heff ⊢
      exact h.answers heff rfl
  · have heff := fun hb => cueOpEffect_of_body (m := m) hb .stop (s.removeHead rest)
    have hstopped := State.listStopped_cch (s := s.removeHead rest) h.settled.reported
    refine ⟨fun hb => h.answers (cueOpEffect_badLength hb _ _) rfl, fun hb hidle hw => ?_, ?_⟩
    · exact h.answers ((heff hb).trans (by rw [State.cueOp_stop, if_pos (by exact ⟨hidle, hw⟩)]; rfl)) rfl
    · intro ended
      refine ⟨fun i hb hruns hi => ?_, fun i hb hcin hi => ?_, fun w hb hidle hw => ?_⟩
      · intro cue residue written tbm
        have hstop := State.stopList_runs (s := s.removeHead rest) hruns hi
        have hne : ¬ (s.csq.state = .idle ∧ s.csq.waiting = none) := by
          rintro ⟨hidle, -⟩
          rcases hruns with hr | hr | hr <;> cases hr.symm.trans hidle
        exact h.answers_reporting ((heff hb).trans (by
          rw [State.cueOp_stop, if_neg (by exact hne), hstop]
          rfl)) (hstopped s.csq (s.tbm.withResidue i s.csq.remaining) _) rfl
      · have hstop := State.stopList_countIn (s := s.removeHead rest) hcin hi
        have hne : ¬ (s.csq.state = .idle ∧ s.csq.waiting = none) := fun hn => by
          cases hcin.symm.trans hn.1
        exact h.answers_reporting ((heff hb).trans (by
          rw [State.cueOp_stop, if_neg (by exact hne), hstop]
          rfl)) (hstopped s.csq s.tbm _) rfl
      · have hstop := State.stopList_waiting (s := s.removeHead rest) hidle hw
        have hne : ¬ (s.csq.state = .idle ∧ s.csq.waiting = none) := fun hn => by
          cases hw.symm.trans hn.2
        exact h.answers_reporting ((heff hb).trans (by
          rw [State.cueOp_stop, if_neg (by exact hne), hstop]
          rfl)) (hstopped { s.csq with waiting := none, list := w.list } s.tbm _) rfl

end Sys2Proof.Machine


/-! PROOF. Ramps of parameters (R85), ends of noise gates, tap fades and tails (R73, R74, R117, R121), and
the block boundary (R5). -/

namespace Sys2Proof.Machine

variable {s : State}

/-! ### Changes of a parameter (R85) -/

theorem Param.step_waits {p : Param} (h : p.fresh = true ∨ p.change = none) : p.step = p := by
  unfold Param.step
  rcases h with h | h
  · rw [if_pos h]
  · rw [h]
    split <;> rfl

theorem Param.step_boundary {p : Param} {v : Int} (hf : p.fresh = false)
    (hc : p.change = some (.boundary v)) : p.step = { p with run := v, change := none } := by
  simp [Param.step, hf, hc]

theorem Param.step_ramp {p : Param} {a t : Int} {k : Nat} (hf : p.fresh = false)
    (hc : p.change = some (.ramp a t k)) :
    p.step = { p with
      run := a + ((t - a) * (k + 1 : Nat) + 4) / 8
      change := if k + 1 < 8 then some (.ramp a t (k + 1)) else none } := by
  have hround : rounded ((t - a) * (k + 1 : Nat)) 8 = ((t - a) * (k + 1 : Nat) + 4) / 8 :=
    rounded_even _ 4
  simp only [Param.step, hf, hc, Bool.false_eq_true, if_false, hround]
  rfl

/-- The parameter behind the first `j` steps of a ramp. -/
theorem Param.iterate_ramp {p : Param} {a t : Int} (hf : p.fresh = false)
    (hc : p.change = some (.ramp a t 0)) {j : Nat} (h1 : 1 ≤ j) (h8 : j ≤ 8) :
    Param.step^[j] p = { p with
      run := a + ((t - a) * j + 4) / 8
      change := if j = 8 then none else some (.ramp a t j) } := by
  induction j, h1 using Nat.le_induction with
  | base => exact Param.step_ramp hf hc
  | succ j h1 ih =>
    rw [Function.iterate_succ_apply', ih (by omega), Param.step_ramp (a := a) (t := t) (k := j)]
    · have hlast : (if j + 1 < 8 then some (Change.ramp a t (j + 1)) else none) =
          if j + 1 = 8 then none else some (.ramp a t (j + 1)) := by
        by_cases hj : j + 1 = 8
        · rw [if_neg (by omega), if_pos hj]
        · rw [if_pos (by omega), if_neg hj]
      rw [hlast]
    · exact hf
    · exact if_neg (by omega)

/-- Settles O39. -/
theorem rampReachesItsTarget : Obligations.RampReachesItsTarget := by
  refine ⟨fun p start target hrun hf hc j h1 h8 => ?_, fun p v hf hc => Param.step_boundary hf hc,
    fun p hp => Param.step_waits hp, fun kind i v p => ?_, fun c => rfl⟩
  · rw [Param.iterate_ramp hf hc h1 h8]
    refine ⟨rfl, rfl, ?_⟩
    by_cases hj : j < 8
    · exact .inr hj
    · obtain rfl : j = 8 := by omega
      left
      dsimp only
      omega
  · intro started aged
    refine ⟨rfl, rfl, rfl, Param.step_waits (.inl rfl), fun hr => ?_, fun hr => ?_⟩
    · have hchange : aged.change = some (.ramp p.run v 0) := congrArg some (if_pos hr)
      rw [Param.step_ramp rfl hchange]
      simp
    · have hchange : aged.change = some (.boundary v) := congrArg some (if_neg hr)
      rw [Param.step_boundary rfl hchange]

/-! ### Ends of noise gates, tap fades and tails -/

theorem Sce.stage_of_copy {e : Sce} {role : CopyRole} {k : Fin 10} {c : Copy} {st : Stage}
    (hc : e.copy role = some c) (hst : c.stages[k.val]? = some st) : e.stage role k = some st := by
  rw [Sce.stage, hc]
  exact hst

/-- The engine with stage `k` of the copy of a role replaced. -/
def Sce.putStage (e : Sce) (role : CopyRole) (c : Copy) (k : Nat) (st : Stage) : Sce :=
  let c' := { c with stages := c.stages.set k st }
  match role with
  | .live => { e with live := some c' }
  | .fading => { e with fading := some c' }

theorem Sce.mapCopy_mapStage {e : Sce} {role : CopyRole} {k : Fin 10} {c : Copy} {st : Stage}
    (hc : e.copy role = some c) (hst : c.stages[k.val]? = some st) (f : Stage → Stage) :
    e.mapCopy role (Copy.mapStage (k.val + 1) f) = e.putStage role c k.val (f st) := by
  have hset : c.mapStage (k.val + 1) f = { c with stages := c.stages.set k.val (f st) } := by
    rw [Copy.mapStage, Nat.add_sub_cancel, List.modify_eq_set_getElem?, hst]
    rfl
  cases role <;> simp only [Sce.copy] at hc <;> simp only [Sce.mapCopy, Sce.putStage, hc, Option.map_some, hset]

/-- A step due at a stage changes that stage alone. -/
theorem State.serveStage_due {role : CopyRole} {k : Fin 10} {c : Copy} {st : Stage}
    (hc : s.sce.copy role = some c) (hst : c.stages[k.val]? = some st) {due : Stage → Bool}
    (hdue : due st = true) (f : Stage → Stage) :
    s.serveStage role k due f = { s with sce := s.sce.putStage role c k.val (f st) } := by
  rw [State.serveStage, Sce.stage_of_copy hc hst, if_pos (by exact hdue), State.mapSce,
    Sce.mapCopy_mapStage hc hst]

theorem Line.fadeEndDue_iff (x : Line) : x.fadeEndDue = true ↔ x.state ≠ .free ∧ 1024 ≤ x.position := by
  rw [Line.fadeEndDue, Bool.and_eq_true, bne_iff_ne, decide_eq_true_iff]
  rfl

theorem Line.expiryDue_iff (x : Line) : x.expiryDue = true ↔ x.state = .tail ∧ x.expiry = true := by
  simp [Line.expiryDue]

/-- Settles O44. -/
theorem rampsFadesAndTailsEnd : Obligations.RampsFadesAndTailsEnd := by
  refine ⟨fun role k c st g s hawake hc hst hg => ?_, fun l s => ?_⟩
  · intro put
    have hput : ∀ g', { s with sce := s.sce.putStage role c k.val { st with st := .gate g' } } = put g' :=
      fun g' => by cases role <;> rfl
    refine ⟨fun hhold hcount => ?_, fun hattack hk hlen => ?_, fun hrelease hk hgain => ?_⟩
    · have hdue : st.holdEndDue = true := by simp [Stage.holdEndDue, hg, hhold, hcount]
      have hend : st.holdEnd = { st with st := .gate (g.startRamp .release 32768 (st.nat 4)) } := by
        simp only [Stage.holdEnd, hg]
      exact (act_awake _ hawake).trans
        (congrArg _ ((State.serveStage_due hc hst hdue _).trans (by rw [hend, hput]; rfl)))
    · have hdue : st.rampEndDue = true := by
        simp [Stage.rampEndDue, hg, NoiseGate.rampEnded, hattack, hk, hlen]
      have hend : st.rampEnd = { st with st := .gate { g with st := .opened } } := by
        simp only [Stage.rampEnd, hg, hattack, if_true]
      exact (act_awake _ hawake).trans
        (congrArg _ ((State.serveStage_due hc hst hdue _).trans (by rw [hend, hput])))
    · have hdue : st.rampEndDue = true := by
        simp [Stage.rampEndDue, hg, NoiseGate.rampEnded, hrelease, hk, hgain]
      have hend : st.rampEnd = { st with st := .gate { g with st := .closed } } := by
        simp [Stage.rampEnd, hg, hrelease]
      exact (act_awake _ hawake).trans
        (congrArg _ ((State.serveStage_due hc hst hdue _).trans (by rw [hend, hput])))
  · intro x put
    refine ⟨fun hawake hstate hpos => ?_, fun hs hopen hblock hstate hexpiry => ?_⟩
    · have hdue : (s.dlu.lines.get l).fadeEndDue = true :=
        (Line.fadeEndDue_iff x).mpr ⟨hstate, hpos⟩
      exact (act_awake _ hawake).trans (congrArg _ (if_pos hdue))
    · have hdue : s.tailExpiryDue l = true := by
        rw [State.tailExpiryDue, State.atBoundary, hopen, hblock]
        exact (Line.expiryDue_iff x).mpr ⟨hstate, hexpiry⟩
      exact (hs.act_settle fun s => if s.tailExpiryDue l then s.expireTail l else s).trans
        (congrArg _ (if_pos hdue))

/-! ### Stages at a block boundary (R74, R76, R85) -/

/-- The stage with the parameter steps of a boundary taken (R85). -/
def Stage.stepped (st : Stage) : Stage := { st with params := st.params.map Param.step }

theorem Stage.boundary_gate {st : Stage} {g : NoiseGate} (h : st.st = .gate g) :
    st.boundary = { st.stepped with st := .gate (st.decideGate st.stepped g) } := by
  simp only [Stage.boundary, h]
  rfl

theorem Stage.boundary_mod {st : Stage} {mem : List Int} {pos : Nat} (h : st.st = .mod mem pos) :
    st.boundary = { st.stepped with
      st := .mod mem (if lfoPeriod st = lfoPeriod st.stepped then pos else pos % lfoPeriod st.stepped) } := by
  simp only [Stage.boundary, h, refitLfo]
  rfl

theorem Stage.boundary_other {st : Stage} (hg : ∀ g, st.st ≠ .gate g) (hm : ∀ mem pos, st.st ≠ .mod mem pos) :
    st.boundary = st.stepped := by
  unfold Stage.boundary Stage.stepped
  cases h : st.st <;> simp_all [refitLfo]

/-- A stage with a state that neither decides nor oscillates takes its parameter steps alone; the decision of a
noise gate is written out by its state (R74). -/
theorem Stage.decideGate_eq (st stepped : Stage) (g : NoiseGate) :
    let close : Int := max 0 (st.val 0 - st.val 1)
    let keep : GateState → Nat → NoiseGate := fun x hold => { g with st := x, hold := hold, peak := 0 }
    let ramp : GateState → Int → Int → NoiseGate := fun x start len =>
      { g with st := x, start := start, len := len.toNat, k := 0, peak := 0 }
    st.decideGate stepped g =
      match g.st with
      | .closed => if st.val 0 ≤ g.peak then ramp .attack g.gain (stepped.val 2) else keep .closed g.hold
      | .attack => if g.peak < close then ramp .release g.gain (stepped.val 4) else keep .attack g.hold
      | .release => if st.val 0 ≤ g.peak then ramp .attack g.gain (stepped.val 2) else keep .release g.hold
      | .hold => if close ≤ g.peak then keep .opened g.hold else keep .hold (g.hold - 1)
      | .opened =>
        if close ≤ g.peak then keep .opened g.hold
        else if 0 < st.val 3 then keep .hold (st.val 3).toNat
        else ramp .release 32768 (stepped.val 4) := by
  intro close keep ramp
  have hcount : 0 < st.nat 3 ↔ 0 < st.val 3 := Int.pos_iff_toNat_pos.symm
  have hclose : closeLevel st = close := rfl
  obtain ⟨state, gain, hold, peak, start, len, k⟩ := g
  unfold Stage.decideGate
  rw [hclose]
  cases state
  case opened =>
    dsimp only
    by_cases hp : close ≤ peak
    · rw [if_neg (not_lt.mpr hp), if_pos hp]
    · rw [if_pos (not_le.mp hp), if_neg hp]
      by_cases hc : 0 < st.val 3
      · rw [if_pos (hcount.mpr hc), if_pos hc]
        rfl
      · rw [if_neg (mt hcount.mp hc), if_neg hc]
        rfl
  case hold | attack | release | closed =>
    dsimp only
    split <;> rfl

/-! ### The block boundary (R5) -/

/-- The engine behind the stages' part of a block boundary. -/
def Sce.bounded (e : Sce) : Sce :=
  { e with live := e.live.map Copy.boundary, fading := e.fading.map Copy.boundary }

theorem State.paceTuner_eq (s : State) :
    s.paceTuner = { s with tun := if s.tunerState = .off then s.tun else s.tun.pace } := by
  unfold State.paceTuner
  split <;> rfl

theorem State.blockBoundary_blocks (s : State) :
    let t := s.blockBoundary
    t.sce = s.sce.bounded ∧
    t.frame = { s.frame with blockDue := false, atBlock := true, tested := false } ∧
    t.stg = { s.stg with slots := vmap StgSlot.prepare s.stg.slots, loaderWaits := false } ∧
    t.pmn = { s.pmn with switches := vmap Footswitch.countHold s.pmn.switches } ∧
    t.tun = (if s.tunerState = .off then s.tun else s.tun.pace) ∧
    t.sli = s.sli ∧ t.cch = s.cch ∧ t.tbm = s.tbm ∧ t.swu = s.swu ∧ t.tck = s.tck ∧ t.csq = s.csq := by
  dsimp only [State.blockBoundary]
  rw [State.paceTuner_eq]
  refine ⟨?_, ?_, ?_, ?_, ?_, ?_, ?_, ?_, ?_, ?_, ?_⟩
  all_goals simp [Sce.bounded, State.tunerState, State.engaged]

theorem State.blockBoundary_dlu (s : State) :
    s.blockBoundary.dlu =
      ((({ s with sce := s.sce.bounded } : State).syncLines).mapDlu fun d =>
        { d with lines := vmap (Line.judge d.threshold d.quietTime d.limit) d.lines }).dlu := by
  have hbounded : (s.mapSce fun e =>
      { e with live := e.live.map Copy.boundary, fading := e.fading.map Copy.boundary }) =
      { s with sce := s.sce.bounded } := rfl
  simp only [State.blockBoundary, State.paceTuner_eq, State.mapFrame_dlu, State.mapPmn_dlu, State.mapStg_dlu,
    hbounded]

/-- Every line takes the values of its governing stage and is then judged (R109, R117). -/
theorem State.blockBoundary_line (s : State) (l : LineNo) :
    s.blockBoundary.dlu.lines.get l =
      Line.judge s.dlu.threshold s.dlu.quietTime s.dlu.limit
        (s.sce.bounded.handedLine s.tck.period l (s.dlu.lines.get l)) := by
  obtain ⟨ls, hls⟩ := ({ s with sce := s.sce.bounded } : State).syncLines_dlu
  have hhanded := ({ s with sce := s.sce.bounded } : State).syncLines_handed l
  rw [State.blockBoundary_dlu, State.mapDlu_dlu, vmap_get, hhanded, hls]

theorem Line.judge_of_ne {x : Line} (h : x.state ≠ .tail) (a b c : Nat) : x.judge a b c = x := if_neg h

theorem Sce.handedLine_state (e : Sce) (period : Nat) (l : LineNo) (x : Line) :
    (e.handedLine period l x).state = x.state := by
  unfold Sce.handedLine
  (repeat' split) <;> simp

theorem Stage.boundary_eq (st : Stage) :
    let decided : Stage → Stage → NoiseGate → NoiseGate := fun st stepped g =>
      let close : Int := max 0 (st.val 0 - st.val 1)
      let keep : GateState → Nat → NoiseGate := fun x hold => { g with st := x, hold := hold, peak := 0 }
      let ramp : GateState → Int → Int → NoiseGate := fun x start len =>
        { g with st := x, start := start, len := len.toNat, k := 0, peak := 0 }
      match g.st with
      | .closed => if st.val 0 ≤ g.peak then ramp .attack g.gain (stepped.val 2) else keep .closed g.hold
      | .attack => if g.peak < close then ramp .release g.gain (stepped.val 4) else keep .attack g.hold
      | .release => if st.val 0 ≤ g.peak then ramp .attack g.gain (stepped.val 2) else keep .release g.hold
      | .hold => if close ≤ g.peak then keep .opened g.hold else keep .hold (g.hold - 1)
      | .opened =>
        if close ≤ g.peak then keep .opened g.hold
        else if 0 < st.val 3 then keep .hold (st.val 3).toNat
        else ramp .release 32768 (stepped.val 4)
    let period : Stage → Nat := fun x => 4800000 / (x.val 0).toNat
    st.boundary = match st.st with
      | .gate g => { st.stepped with st := .gate (decided st st.stepped g) }
      | .mod mem pos =>
        { st.stepped with
          st := .mod mem (if period st = period st.stepped then pos else pos % period st.stepped) }
      | _ => st.stepped := by
  intro decided period
  cases h : st.st with
  | gate g =>
    rw [Stage.boundary_gate h, Stage.decideGate_eq]
  | mod mem pos => exact Stage.boundary_mod h
  | eq b => exact Stage.boundary_other (by simp [h]) (by simp [h])
  | drive => exact Stage.boundary_other (by simp [h]) (by simp [h])
  | amp pre e a b c => exact Stage.boundary_other (by simp [h]) (by simp [h])
  | cab hist => exact Stage.boundary_other (by simp [h]) (by simp [h])
  | delay => exact Stage.boundary_other (by simp [h]) (by simp [h])
  | loop => exact Stage.boundary_other (by simp [h]) (by simp [h])
  | volume => exact Stage.boundary_other (by simp [h]) (by simp [h])

/-- A LIVE line by the stage that governs it: that of the LIVE copy, or else of the FADING one (R109). -/
theorem Sce.handedLine_governed {x : Line} (h : x.state = .live) (e : Sce) (period : Nat) (l : LineNo) :
    let ofLive := e.live.bind (·.delayOn l)
    let governing := if ofLive.isSome then ofLive else e.fading.bind (·.delayOn l)
    (governing = none → e.handedLine period l x = x) ∧
      ∀ st, governing = some st → e.handedLine period l x = x.handed period st := by
  intro ofLive governing
  unfold Sce.handedLine
  rw [if_neg (by simp [h])]
  cases hl : e.live.bind (·.delayOn l) with
  | some st =>
    have hg : governing = some st := by simp [governing, ofLive, hl]
    clear_value governing
    subst hg
    dsimp only
    refine ⟨fun h => (by cases h), fun st' hst => ?_⟩
    cases hst
    rfl
  | none =>
    have hg : governing = e.fading.bind (·.delayOn l) := by simp [governing, ofLive, hl]
    clear_value governing
    subst hg
    cases hf : e.fading.bind (·.delayOn l) with
    | some st =>
      dsimp only
      refine ⟨fun h => (by cases h), fun st' hst => ?_⟩
      cases hst
      rfl
    | none => exact ⟨fun _ => rfl, fun st' hst => by cases hst⟩

theorem State.tunerState_off (s : State) : s.tunerState = .off ↔ s.engaged = false ∧ s.tun.mode = .off := by
  unfold State.tunerState
  cases s.engaged <;> cases s.tun.mode <;> simp

/-- Settles O38. -/
theorem blockBoundaryTaken : Obligations.BlockBoundaryTaken := by
  intro s hs hopen hblock decided after bounded
  have hafter : Stage.boundary = after := funext fun st => st.boundary_eq
  have hbounded : Copy.boundary = bounded := by
    funext c
    rw [Copy.boundary, hafter]
  obtain ⟨hsce, hframe, hstg, hpmn, htun, hsli, hcch, htbm, hswu, htck, hcsq⟩ := s.blockBoundary_blocks
  have hline := s.blockBoundary_line
  have hexec : exec .blockBoundary s = .next s.blockBoundary :=
    (hs.act_settle fun s => if s.boundaryDue then s.blockBoundary else s).trans
      (congrArg _ (if_pos (by rw [State.boundaryDue, hopen, hblock]; rfl)))
  refine ⟨s.blockBoundary, hexec, ?_, fun l hlive => ?_, hframe, fun i => ?_, ?_, ?_, ?_, fun f => ?_,
    fun hrun => ?_, fun heng hoff => ?_, fun l htail => ?_, fun l hfree => ?_, hsli, hcch, htbm, hswu, htck,
    hcsq⟩
  · rw [hsce, ← hbounded]
    rfl
  · have hgoverned := Sce.handedLine_governed hlive s.sce.bounded s.tck.period l
    rw [← Line.judge_of_ne (x := s.sce.bounded.handedLine s.tck.period l (s.dlu.lines.get l))
      (by simp [Sce.handedLine_state, hlive]) s.dlu.threshold s.dlu.quietTime s.dlu.limit, ← hline, ← hsce]
      at hgoverned
    exact hgoverned
  · rw [hstg, vmap_get]
    rfl
  · rw [hstg]
  · rw [hstg]
  · rw [hstg]
  · rw [hpmn, vmap_get]
    simp [Footswitch.countHold]
  · rw [htun, if_neg]
    · rfl
    · rw [State.tunerState_off]
      rintro ⟨heng, hoff⟩
      simp [heng, hoff] at hrun
  · rw [htun, if_pos ((State.tunerState_off s).mpr ⟨heng, hoff⟩)]
  · rw [hline, Sce.handedLine_of_ne _ _ _ (by simp [htail]), Line.judge, if_pos htail,
      Nat.mul_comm s.dlu.limit]
  · rw [hline, Sce.handedLine_of_ne _ _ _ (by simp [hfree]), Line.judge_of_ne (by simp [hfree])]

end Sys2Proof.Machine


/-! PROOF. The loader, and crossfades: the start of the pending switch, the reversal and the completion at a
block boundary. -/

namespace Sys2Proof.Machine

variable {s : State}

/-! ### The loader (R127–R129) -/

theorem Stg.preparing_none {g : Stg} (h : g.preparing = none) (j : SlotNo) :
    (g.slots.get j).state ≠ .preparing := by
  simpa using Stg.find_eq_none h j

/-- The slots an eligible one of which the loader chooses: a demanded one before any other. -/
theorem Stg.loaderChoice_some {g : Stg} {i : SlotNo} (h : g.loaderChoice = some i) :
    g.preparing = none ∧ g.loaderWaits = false ∧
      (g.armQueue.find? (fun j => (g.slots.get j).eligible && (g.slots.get j).demanded) = some i ∨
        (g.armQueue.find? (fun j => (g.slots.get j).eligible && (g.slots.get j).demanded) = none ∧
          g.armQueue.find? (fun j => (g.slots.get j).eligible) = some i)) := by
  unfold Stg.loaderChoice at h
  split at h
  · cases h
  · next hidle =>
    obtain ⟨hprep, hwait⟩ : g.preparing = none ∧ g.loaderWaits = false := by simpa using hidle
    refine ⟨hprep, hwait, ?_⟩
    split at h
    · next hd => exact .inl (hd.trans h)
    · next hd => exact .inr ⟨hd, h⟩

theorem Stg.loaderChoice_of_eligible {g : Stg} (hprep : g.preparing = none) (hwait : g.loaderWaits = false)
    {j : SlotNo} (hj : j ∈ g.armQueue) (he : (g.slots.get j).eligible = true) :
    ∃ i, g.loaderChoice = some i := by
  have hfound : (g.armQueue.find? fun i => (g.slots.get i).eligible).isSome :=
    List.find?_isSome.mpr ⟨j, hj, he⟩
  unfold Stg.loaderChoice
  rw [if_neg (by simp [hprep, hwait])]
  split
  · exact ⟨_, rfl⟩
  · exact Option.isSome_iff_exists.mp hfound

theorem StgSlot.not_eligible_demanded {t : StgSlot} (h : ¬ (t.eligible && t.demanded) = true)
    (he : t.state = .queued ∧ t.fresh = false) : t.demanded = false := by
  simpa [t.eligible_iff.mpr he] using h

theorem Stg.loaderChoice_eligible {g : Stg} {i : SlotNo} (h : g.loaderChoice = some i) :
    (g.slots.get i).eligible = true := by
  obtain ⟨-, -, hd | ⟨-, he⟩⟩ := Stg.loaderChoice_some h
  · have hi := List.find?_some hd
    exact (Bool.and_eq_true_iff.mp hi).1
  · simpa using List.find?_some he

theorem Tbm.referencesValid_iff (t : Tbm) (r : SceneRecord) :
    t.referencesValid r = true ↔
      (∀ k ∈ r.shapes, t.valid .shape k = true) ∧ ∀ k ∈ r.irs, t.valid .ir k = true := by
  simp [Tbm.referencesValid]

theorem State.atBoundary_of (ho : s.frame.isOpen = true) (hb : s.frame.atBlock = true) :
    s.atBoundary = true := by
  simp [State.atBoundary, ho, hb]

/-- The take of the loader at a boundary. -/
theorem State.Settled.takeLoader (hs : s.Settled) (ho : s.frame.isOpen = true)
    (hb : s.frame.atBlock = true) {i : SlotNo} (hi : s.stg.loaderChoice = some i) :
    exec .loaderTake s = .next (s.loaderTake i).deliver := by
  have hnext : s.loaderNext = some i := by
    rw [State.loaderNext, if_pos (State.atBoundary_of ho hb), hi]
  refine (hs.act_settle (State.loaderTakes 1)).trans ?_
  simp only [State.loaderTakes, hnext]

theorem State.Settled.loaderWaits (hs : s.Settled) (hw : s.stg.loaderWaits = true) :
    exec .loaderTake s = .next s := by
  have hnext : s.loaderNext = none := by
    simp [State.loaderNext, Stg.loaderChoice, hw]
  refine (hs.act_settle (State.loaderTakes 1)).trans ?_
  simp only [State.loaderTakes, hnext]

theorem SceneRecord.preparation_eq (r : SceneRecord) : r.preparation = 2 + r.taps.getD 0 / 128 := by
  unfold SceneRecord.preparation
  cases r.taps <;> simp

theorem State.startPreparation_eq (i : SlotNo) (blocks : Nat) (s : State) :
    s.startPreparation i blocks = { s with stg := { s.stg with
      slots := upd s.stg.slots i { s.stg.slots.get i with state := .preparing, remaining := blocks }
      armQueue := s.stg.armQueue.filter (· ≠ i) } } := by
  simp only [State.startPreparation, State.setSlot_eq, State.mapStg, filter_bne_eq]

/-- The slots once slot `i` has been emptied. -/
def Stg.emptied (g : Stg) (i : SlotNo) : Stg :=
  { g with
    slots := upd g.slots i StgSlot.vacant
    armQueue := g.armQueue.filter (· ≠ i)
    readyOrder := g.readyOrder.filter (· ≠ i) }

/-- A slot refused by the loader, with its report and not yet the end of the pending switch. -/
def State.refusedSlot (i : SlotNo) (s : State) : State :=
  { s with
    stg := s.stg.emptied i
    cch := { s.cch with outbox := s.cch.outbox ++ [armRecord i (s.stg.slots.get i) .notPresent] } }

theorem State.refusedSlot_eq (i : SlotNo) (s : State) :
    (s.emptySlot i).armReport i (s.stg.slots.get i) .notPresent = s.refusedSlot i := by
  simp only [State.armReport_eq, State.emptySlot, State.mapStg, filter_bne_eq, State.refusedSlot,
    Stg.emptied]

theorem State.loaderTake_valid {i : SlotNo} {n : SceneNo} (hn : (s.stg.slots.get i).scene = some n)
    (h : s.tbm.referencesValid (s.tbm.sceneRecord n) = true) :
    s.loaderTake i = s.startPreparation i (s.tbm.sceneRecord n).preparation := by
  unfold State.loaderTake
  simp only [hn, Option.elim_some]
  exact if_pos h

theorem State.loaderTake_refused {i : SlotNo} {n : SceneNo} (hn : (s.stg.slots.get i).scene = some n)
    (h : ¬ s.tbm.referencesValid (s.tbm.sceneRecord n) = true) :
    s.loaderTake i = if (s.stg.slots.get i).demanded then (s.refusedSlot i).refusePending .notPresent
      else s.refusedSlot i := by
  unfold State.loaderTake
  simp only [hn, Option.elim_some, State.refusedSlot_eq]
  exact if_neg h

/-! ### The end of a preparation (R129) -/

theorem Stg.prepared_state {g : Stg} {i : SlotNo} (h : g.prepared = some i) :
    (g.slots.get i).state = .preparing ∧ (g.slots.get i).remaining = 0 := by
  simpa using Stg.find_some h

theorem State.completePreparation_eq {i : SlotNo} {n : SceneNo} (hn : (s.stg.slots.get i).scene = some n) :
    s.completePreparation i = { s with
      stg := { s.stg with
        slots := upd s.stg.slots i
          { s.stg.slots.get i with state := .ready, remaining := 0, image := some (s.tbm.image n) }
        readyOrder := i :: s.stg.readyOrder.filter (· ≠ i) }
      cch := { s.cch with outbox := s.cch.outbox ++ [armRecord i (s.stg.slots.get i) .ok] } } := by
  simp only [State.completePreparation, State.armReport_eq, State.setSlot_eq, State.mapStg, filter_bne_eq,
    hn]
  rfl

/-- The reports that an action has raised alone are delivered behind it. -/
theorem State.deliver_raised {t : State} {rs : List Record} (hs : s.cch.outbox = [])
    (ht : t.cch = { s.cch with outbox := s.cch.outbox ++ rs }) :
    t.deliver = State.reporting rs { t with cch := s.cch } := by
  have hout : { s.cch with outbox := [] } = s.cch := by rw [← hs]
  rw [State.deliver_eq, ht, hs, List.nil_append]
  exact congrArg (fun c => State.reporting rs { t with cch := c }) hout

/-- Settles O40: the choice of the loader, its take and the end of a preparation. -/
theorem loaderPreparesASlot : Obligations.LoaderPreparesASlot := by
  refine ⟨⟨fun g i h => ?_, fun g hprep hwait => ?_, fun g j hj h0 => ?_, fun s hs hw => hs.loaderWaits hw,
    fun i n s hs ho hb hi hn => ?_⟩, fun i n s hs ho hb hi hn => ?_⟩
  · obtain ⟨hprep, hwait, hfound⟩ := Stg.loaderChoice_some h
    refine ⟨Stg.preparing_none hprep, hwait, (StgSlot.eligible_iff _).mp (Stg.loaderChoice_eligible h), ?_⟩
    rcases hfound with hd | ⟨hd, he⟩
    · obtain ⟨hi, front, back, hq, hfront⟩ := List.find?_eq_some_iff_append.mp hd
      exact ⟨front, back, hq,
        .inl ⟨(Bool.and_eq_true_iff.mp hi).2, fun j hj => StgSlot.not_eligible_demanded
          (by simpa only [Bool.not_eq_true, Bool.not_eq_true'] using hfront j hj)⟩⟩
    · obtain ⟨-, front, back, hq, hfront⟩ := List.find?_eq_some_iff_append.mp he
      refine ⟨front, back, hq, .inr ⟨fun j hj => ?_, fun j hj => ?_⟩⟩
      · exact StgSlot.not_eligible_demanded (List.find?_eq_none.mp hd j hj)
      · exact fun hel => by simpa [(StgSlot.eligible_iff _).mpr hel] using hfront j hj
  · rintro ⟨j, hj, he⟩
    exact Stg.loaderChoice_of_eligible (Stg.find_none fun k => by simpa using hprep k) hwait hj
      ((StgSlot.eligible_iff _).mpr he)
  · have hsome : ∃ i, g.prepared = some i := Stg.find_isSome j (by simp [hj, h0])
    refine ⟨hsome, fun hone => ?_⟩
    obtain ⟨i, hi⟩ := hsome
    rw [hi, hone i (Stg.prepared_state hi).1]
  · have hexec := hs.takeLoader ho hb hi
    refine ⟨fun hv => ?_, fun hv hd => ?_, fun hv hd hlegal p hp htarget => ?_⟩
    · rw [hexec, State.loaderTake_valid hn ((Tbm.referencesValid_iff _ _).mpr hv),
        State.startPreparation_eq, SceneRecord.preparation_eq, State.deliver_of_empty (by exact hs.reported)]
    · rw [hexec, State.loaderTake_refused hn (fun h => hv ((Tbm.referencesValid_iff _ _).mp h)),
        if_neg (by simp [hd]), State.deliver_raised hs.reported rfl]
      rfl
    · have hstate : (s.stg.slots.get i).state = .queued :=
        ((StgSlot.eligible_iff _).mp (Stg.loaderChoice_eligible hi)).1
      have hgone : (s.refusedSlot i).stg.holding n = none :=
        Stg.holding_emptied (hlegal.alone i) n hn _ _ _
      have hdest : (s.refusedSlot i).destination = s.destination :=
        (State.destination_emptySlot (by simp [hstate]) : (s.emptySlot i).destination = s.destination)
      rw [hexec, State.loaderTake_refused hn (fun h => hv ((Tbm.referencesValid_iff _ _).mp h)),
        if_pos hd, State.refusePending_eq .notPresent (by exact hp) htarget hgone, hdest,
        State.deliver_raised (rs := [armRecord i (s.stg.slots.get i) .notPresent,
          switchRecord p.req .notPresent s.destination (some n) false false]) hs.reported
          (by simp [State.refusedSlot])]
      rfl
  · have hcomp : s.completion = some i := by
      simp [State.completion, State.atBoundary_of ho hb, hi]
    obtain ⟨hstate, hzero⟩ := Stg.prepared_state hi
    refine ⟨hstate, hzero, (hs.act_settle State.closePreparation).trans ?_⟩
    simp only [State.closePreparation, hcomp]
    rw [State.completePreparation_eq hn, State.deliver_raised hs.reported rfl]

/-! ### The reversal (R142) -/

theorem State.deliver_cch {t : State} {rs : List Record} (hs : s.cch.outbox = [])
    (ht : t.cch = { s.cch with outbox := s.cch.outbox ++ rs }) : t.deliver.cch = (s.reporting rs).cch :=
  (congrArg State.cch (State.deliver_raised hs ht)).trans (State.reporting_cch rfl rs)

theorem State.takeReversal_blocks {x : Crossfade} {r : Request} (h : s.swu.crossfade = some x)
    (hr : x.reversal = some r) :
    s.takeReversal.swu = { s.swu with crossfade := some { x with
      elapsed := x.length - x.elapsed, served := r, reversed := true, reversal := none
      reversalFresh := false } } ∧
    s.takeReversal.sce = { s.sce with live := s.sce.fading, fading := s.sce.live } ∧
    s.takeReversal.stg.slots = vmap StgSlot.swapRole s.stg.slots := by
  unfold State.takeReversal
  simp [h, hr, State.switchReport, State.mapSwu, State.mapSce, State.mapStg, State.mapDlu]

theorem StgSlot.swapRole_eq (t : StgSlot) : t.swapRole =
    if t.state = .live then { t with state := .fading }
    else if t.state = .fading then { t with state := .live, pinned := false } else t := by
  unfold StgSlot.swapRole
  cases h : t.state <;> simp

theorem Line.swapOwners_live {x : Line} (h : x.state = .live) :
    x.swapOwners = { x with owner1 := x.owner2, owner2 := x.owner1 } := if_pos h

theorem Line.swapOwners_of_ne {x : Line} (h : x.state ≠ .live) : x.swapOwners = x := if_neg h

@[simp] theorem Line.handed_kept (period : Nat) (st : Stage) (x : Line) :
    (x.handed period st).owner1 = x.owner1 ∧ (x.handed period st).owner2 = x.owner2 := by
  unfold Line.handed
  dsimp only
  generalize (if (st.val 2).toNat = 0 then (st.val 3).toNat
    else max 1 (min (period * (st.val 4).toNat / (st.val 5).toNat) 98303)) = time
  (repeat' split) <;> simp

/-- The values handed to a line leave its state, its owners and its contents. -/
theorem Sce.handedLine_kept (e : Sce) (period : Nat) (l : LineNo) (x : Line) :
    (e.handedLine period l x).owner1 = x.owner1 ∧ (e.handedLine period l x).owner2 = x.owner2 ∧
      (e.handedLine period l x).mem = x.mem := by
  unfold Sce.handedLine
  (repeat' split) <;> simp

/-- Settles O42: each block behind the exchange of the parties. -/
theorem reversalExchangesTheParties : Obligations.ReversalExchangesTheParties := by
  intro x r s hs ho hb hx hr hfresh
  have hdue : s.reversalDue = true := by simp [State.reversalDue, hx, hr, hfresh]
  have hexec : exec .reversal s = .next s.takeReversal.deliver :=
    (hs.act_settle fun s => if s.atBoundary && s.reversalDue then s.takeReversal.deliver else s).trans
      (congrArg _ (if_pos (by simp [State.atBoundary_of ho hb, hdue])))
  obtain ⟨hswu, hsce, hslots⟩ := State.takeReversal_blocks hx hr
  have hcch := State.takeReversal_cch hx hr
  rw [(State.destination_of_held hx (by rw [hr]; rfl)).1] at hcch
  have hline (l) := State.takeReversal_lines hx hr l
  refine ⟨_, hexec, ?_, ?_, fun i => ?_, fun l hl => ?_, fun l hl => ?_, State.deliver_cch hs.reported hcch,
    by simp, by simp, by simp, by simp, by simp, ?_⟩
  · rw [State.deliver_swu, hswu]
  · rw [State.deliver_sce, hsce]
  · rw [State.deliver_stg, hslots, vmap_get, StgSlot.swapRole_eq]
  · have hvalue := (hline l).trans (congrArg _ (Line.swapOwners_live hl))
    obtain ⟨hown1, hown2, hmem⟩ := Sce.handedLine_kept
      { s.sce with live := s.sce.fading, fading := s.sce.live } s.tck.period l { s.dlu.lines.get l with
        owner1 := (s.dlu.lines.get l).owner2, owner2 := (s.dlu.lines.get l).owner1 }
    rw [State.deliver_dlu, hvalue]
    exact ⟨(Sce.handedLine_state _ _ _ _).trans hl, hown1, hown2, hmem, rfl⟩
  · rw [State.deliver_dlu, hline l, Line.swapOwners_of_ne hl, Sce.handedLine_of_ne _ _ _ hl]
  · rw [State.deliver_tun, State.takeReversal_tun hx hr]

/-! ### The completion (R143) -/

theorem Line.release_owned {x : Line} (h : x.state = .live) (ho : x.owner1 ≠ none) (b : Bool) :
    x.release b = { x with owner2 := none } := by
  simp [Line.release, h, ho]

theorem Line.release_left {x : Line} (h : x.state = .live) (ho : x.owner1 = none) :
    x.release false = if x.tail = true then { x with
      state := .tail, owner2 := none, held := none, quiet := 0, age := 0, peak := 0, expiry := false }
    else Line.free := by
  obtain ⟨⟩ := x
  simp_all [Line.release, Line.toTail]

theorem Line.release_of_ne {x : Line} (h : x.state ≠ .live) (b : Bool) : x.release b = x := if_neg h

/-- The lines that a completion leaves out of the live scene are handed nothing. -/
theorem Line.release_left_state {x : Line} (h : x.state = .live) (ho : x.owner1 = none) :
    (x.release false).state ≠ .live := by
  rw [Line.release_left h ho]
  split <;> simp [Line.free]

/-- Settles O43: each block behind the end of the crossfade. -/
theorem crossfadeCompletes : Obligations.CrossfadeCompletes := by
  intro x s hs ho hb hx hlen hrev
  have hnot : s.reversalDue = false := by
    rcases hrev with hrev | hrev <;> simp [State.reversalDue, hx, hrev]
  have hdue : s.completionDue = true := by simp [State.completionDue, hnot, hx, hlen]
  have hexec : exec .crossfadeComplete s = .next (s.completeCrossfade false).deliver :=
    (hs.act_settle fun s => if s.atBoundary && s.completionDue then (s.completeCrossfade false).deliver
      else s).trans (congrArg _ (if_pos (by simp [State.atBoundary_of ho hb, hdue])))
  obtain ⟨hsce, hswu⟩ := State.completeCrossfade_sce hx false
  have hstg := State.completeCrossfade_stg hx false
  have hline (l) := State.completeCrossfade_lines false hx l
  refine ⟨_, hexec, ?_, ?_, fun hf => ?_, fun i hf => ?_, fun l hl => ⟨fun h1 ht => ?_, fun h1 ht => ?_,
    fun h1 => ?_⟩, fun l hl => ?_, State.deliver_cch hs.reported (State.completeCrossfade_cch hx),
    by simp, by simp, by simp, by simp, by simp, by simp⟩
  · rw [State.deliver_swu, hswu]
  · rw [State.deliver_sce, hsce]
  · rw [State.deliver_stg, hstg, hf]
  · rw [State.deliver_stg, hstg, hf]
    simp only [filter_bne_eq]
  · rw [State.deliver_dlu, hline l, Sce.handedLine_of_ne _ _ _ (Line.release_left_state hl h1),
      Line.release_left hl h1, if_neg (by simp [ht])]
  · rw [State.deliver_dlu, hline l, Sce.handedLine_of_ne _ _ _ (Line.release_left_state hl h1),
      Line.release_left hl h1, if_pos ht]
  · rw [State.deliver_dlu, hline l, Line.release_owned hl h1]
    obtain ⟨hown1, hown2, hmem⟩ := Sce.handedLine_kept { s.sce with fading := none } s.tck.period l
      { s.dlu.lines.get l with owner2 := none }
    exact ⟨(Sce.handedLine_state _ _ _ _).trans hl, hown1, hown2, hmem, rfl⟩
  · rw [State.deliver_dlu, hline l, Line.release_of_ne hl, Sce.handedLine_of_ne _ _ _ hl]

/-! ### The start of the pending switch (R139, R140) -/

theorem State.startReady_false {p : Pending} (hp : s.swu.pending = some p)
    (h : p.passed = false ∨ p.fresh = true ∨ ∃ n, p.req.target = some n ∧ (s.stg.holding n = none ∨
      ∃ i, s.stg.holding n = some i ∧ (s.stg.slots.get i).state ≠ .ready)) : s.startReady = false := by
  rcases h with h | h | ⟨n, hn, h | ⟨i, hi, h⟩⟩
  · simp [State.startReady, hp, h]
  · simp [State.startReady, hp, h]
  · simp [State.startReady, hp, hn, h]
  · simp [State.startReady, hp, hn, hi, h]

theorem State.completionDue_idle (h : s.swu.crossfade = none) : s.completionDue = false := by
  simp [State.completionDue, h]

/-- The start test at a block boundary, with no crossfade in flight. -/
theorem State.Settled.startTested (hs : s.Settled) (ho : s.frame.isOpen = true)
    (hb : s.frame.atBlock = true) (ht : s.frame.tested = false) (hx : s.swu.crossfade = none) :
    exec .crossfadeStart s = .next (if s.startReady then s.startCrossfade.deliver
      else { s with frame := { s.frame with tested := true } }) := by
  have hexec : exec .crossfadeStart s = .next s.startTest.deliver :=
    (hs.act_settle fun s => if s.atBoundary && !s.frame.tested then s.startTest.deliver else s).trans
      (congrArg _ (if_pos (by simp [State.atBoundary_of ho hb, ht])))
  have htest : s.startTest = if s.startReady then s.startCrossfade
      else { s with frame := { s.frame with tested := true } } := by
    simp only [State.startTest, State.completionDue_idle hx]
    rfl
  rw [hexec, htest]
  split
  · rfl
  · rw [State.deliver_of_empty (by exact hs.reported)]

/-- A line behind the start of a crossfade, before a cut completes: bound, shared, adopted or left. -/
def State.boundLine (copy : Option Copy) (target : Option SceneNo) (l : LineNo) (s : State) : Line :=
  let x := s.dlu.lines.get l
  match x.state, copy.bind (·.delayOn l) with
  | .free, some st => Line.handed s.tck.period st { Line.free with state := .live, owner1 := target }
  | .live, some st => Line.handed s.tck.period st { x with owner1 := target, owner2 := s.liveScene }
  | .tail, some st => Line.handed s.tck.period st
    { x with
      state := .live, owner1 := target, owner2 := none, quiet := 0, age := 0, peak := 0, expiry := false }
  | .live, none =>
    let left := { x with owner1 := none, owner2 := s.liveScene }
    match s.sce.live.bind (·.delayOn l) with
    | some st => Line.handed s.tck.period st left
    | none => left
  | .free, none => x
  | .tail, none => x

theorem Sce.handedLine_live {x : Line} (h : x.state = .live) {e : Sce} {l : LineNo} {st : Stage}
    (hst : e.live.bind (·.delayOn l) = some st) (period : Nat) :
    e.handedLine period l x = x.handed period st := by
  simp [Sce.handedLine, h, hst]

/-- What the binding and the values handed on make of a line. -/
theorem State.boundLine_eq {copy : Option Copy} {target : Option SceneNo}
    (h : copy.isSome = true → target.isSome = true) (l : LineNo) :
    ({ s.sce with live := copy, fading := s.sce.live } : Sce).handedLine s.tck.period l
      (Line.bind (incomingOn copy target l) s.liveScene (s.dlu.lines.get l)) = s.boundLine copy target l := by
  cases hd : copy.bind (·.delayOn l) with
  | none =>
    have hin : incomingOn copy target l = none := by simp [incomingOn, hd]
    rw [hin]
    cases hx : (s.dlu.lines.get l).state with
    | free => simp [State.boundLine, Line.bind, Sce.handedLine, hx, hd]
    | tail => simp [State.boundLine, Line.bind, Sce.handedLine, hx, hd]
    | live =>
      cases ho : s.sce.live.bind (·.delayOn l) <;>
        simp [State.boundLine, Line.bind, Sce.handedLine, hx, hd, ho]
  | some st =>
    obtain ⟨n, rfl⟩ : ∃ n, target = some n := Option.isSome_iff_exists.mp (h (by
      cases copy with
      | none => cases hd
      | some c => rfl))
    have hin : incomingOn copy (some n) l = some n := by simp [incomingOn, hd]
    rw [hin]
    cases hx : (s.dlu.lines.get l).state <;>
      simp [State.boundLine, Line.bind, Sce.handedLine, hx, hd]

/-- A cut completes: a line of the old scene alone is released, any other loses owner 2. -/
def Line.cut (x : Line) : Line :=
  if x.state ≠ .live then x
  else if x.owner1 = none then
    if x.tail = true then
      { x with
        state := .tail, owner2 := none, held := none, quiet := 0, age := 0, peak := 0, expiry := false }
    else Line.free
  else { x with owner2 := none }

theorem Line.release_eq_cut (x : Line) : x.release false = x.cut := by
  by_cases h : x.state = .live
  · by_cases ho : x.owner1 = none
    · exact (Line.release_left h ho).trans ((if_neg (not_not.mpr h)).trans (if_pos ho)).symm
    · exact (Line.release_owned h ho _).trans ((if_neg (not_not.mpr h)).trans (if_neg ho)).symm
  · exact (Line.release_of_ne h _).trans (if_pos h).symm

theorem Line.handed_owner2 (period : Nat) (st : Stage) (x : Line) (o : Option SceneNo) :
    ({ x with owner2 := o } : Line).handed period st = { x.handed period st with owner2 := o } := by
  unfold Line.handed
  dsimp only
  (repeat' split) <;> rfl

/-- A line of the new scene has been handed the values of its stage there. -/
theorem State.boundLine_owned {copy : Option Copy} {target : Option SceneNo} {l : LineNo}
    (hl : (s.dlu.lines.get l).Legal) (hlive : (s.boundLine copy target l).state = .live)
    (ho : (s.boundLine copy target l).owner1 ≠ none) :
    ∃ (st : Stage) (y : Line), copy.bind (·.delayOn l) = some st ∧
      (y.held ≠ none → y.target ≠ y.current) ∧ s.boundLine copy target l = y.handed s.tck.period st := by
  unfold State.boundLine at hlive ho ⊢
  dsimp only at hlive ho ⊢
  cases hd : copy.bind (·.delayOn l) with
  | none =>
    simp only [hd] at hlive ho
    cases hx : (s.dlu.lines.get l).state with
    | free => simp [hx] at hlive
    | tail => simp [hx] at hlive
    | live =>
      cases hs : s.sce.live.bind (·.delayOn l) <;> simp [hx, hs] at ho
  | some st =>
    cases hx : (s.dlu.lines.get l).state with
    | free => exact ⟨st, _, rfl, by simp [Line.free], rfl⟩
    | tail => refine ⟨st, _, rfl, ?_, rfl⟩; exact hl.2
    | live => refine ⟨st, _, rfl, ?_, rfl⟩; exact hl.2

/-- Values handed once more, behind a cut, change nothing. -/
theorem State.boundLine_cut {copy : Option Copy} {target : Option SceneNo} (hr : s.InRange) (l : LineNo)
    {e : Sce} (he : e.live = copy) :
    e.handedLine s.tck.period l (s.boundLine copy target l).cut = (s.boundLine copy target l).cut := by
  obtain ⟨-, -, hlegal, -⟩ := s.inRange_iff.mp hr
  by_cases hlive : (s.boundLine copy target l).state = .live
  · by_cases ho : (s.boundLine copy target l).owner1 = none
    · rw [← Line.release_eq_cut, Sce.handedLine_of_ne _ _ _ (Line.release_left_state hlive ho)]
    · obtain ⟨st, y, hst, hy, heq⟩ := State.boundLine_owned (hlegal l) hlive ho
      have hcut : (s.boundLine copy target l).cut = { y.handed s.tck.period st with owner2 := none } := by
        rw [← Line.release_eq_cut, Line.release_owned hlive ho, heq]
      rw [hcut, Sce.handedLine_live (by rw [← heq]; exact hlive) (by rw [he]; exact hst),
        Line.handed_owner2, Line.handed_handed _ _ hy]
  · rw [← Line.release_eq_cut, Line.release_of_ne hlive, Sce.handedLine_of_ne _ _ _ hlive]

theorem Stg.fadingSlot_state {g : Stg} {i : SlotNo} (h : g.fadingSlot = some i) :
    (g.slots.get i).state = .fading := by
  simpa using Stg.find_some h

theorem Stg.liveSlot_state {g : Stg} {i : SlotNo} (h : g.liveSlot = some i) :
    (g.slots.get i).state = .live := by
  simpa using Stg.find_some h

/-- A slot found is the one that meets the test, if only one does. -/
theorem Stg.find_unique {g : Stg} {p : StgSlot → Bool} {o : Option SlotNo}
    (h : ∀ j, p (g.slots.get j) = true ↔ o = some j) : g.find p = o := by
  cases o with
  | none => exact Stg.find_none fun j => by simpa using h j
  | some i =>
    obtain ⟨k, hk⟩ : ∃ k, g.find p = some k := Stg.find_isSome i ((h i).mpr rfl)
    rw [hk, (h k).mp (Stg.find_some hk)]

/-- With no crossfade in flight, the slot that was LIVE is the one FADING behind a start. -/
theorem Stg.started_fadingSlot {g g' : Stg} {slot : Option SlotNo} (h : g.Legal false)
    (hready : ∀ i, slot = some i → (g.slots.get i).state = .ready)
    (hg : ∀ j, g'.slots.get j = g.startedSlot slot j) : g'.fadingSlot = g.liveSlot := by
  have hnone (j) : (g.slots.get j).state ≠ .fading := fun hj => Bool.noConfusion (h.flight j hj)
  refine Stg.find_unique fun j => ?_
  rw [hg, Stg.startedSlot]
  split
  · next hj =>
    simp only [beq_iff_eq, reduceCtorEq, false_iff]
    exact fun hl => by simpa [hready j hj] using Stg.liveSlot_state hl
  · split
    · next hl => simp [hl]
    · next hl => simp [hl, hnone j]

/-- The slot of the target is the one LIVE behind a start. -/
theorem Stg.started_liveSlot {g g' : Stg} {slot : Option SlotNo} {b : Bool} (h : g.Legal b)
    (hg : ∀ j, g'.slots.get j = g.startedSlot slot j) : g'.liveSlot = slot := by
  refine Stg.find_unique fun j => ?_
  rw [hg, Stg.startedSlot]
  split
  · next hj => simp [hj]
  · next hj =>
    split
    · simp [hj]
    · next hl =>
      simp only [beq_iff_eq, hj, iff_false]
      intro hlive
      obtain ⟨k, hk⟩ : ∃ k, g.liveSlot = some k := Stg.find_isSome j (by simpa using hlive)
      exact hl (hk.trans (congrArg some (h.live k j (Stg.liveSlot_state hk) hlive)))

@[simp] theorem Stg.startedSlot_scene (g : Stg) (slot : Option SlotNo) (j : SlotNo) :
    (g.startedSlot slot j).scene = (g.slots.get j).scene := by
  unfold Stg.startedSlot
  (repeat' split) <;> rfl

/-- What `v` is behind a start, before a cut completes. -/
structure State.Started (s : State) (p : Pending) (slot : Option SlotNo) (image : Option Image)
    (v : State) : Prop where
  slots : ∀ j, v.stg.slots.get j = s.stg.startedSlot slot j
  queues : v.stg.armQueue = s.stg.armQueue ∧ v.stg.loaderWaits = s.stg.loaderWaits ∧
    v.stg.readyOrder = s.stg.readyOrder.filter (fun j => slot ≠ some j)
  sce : v.sce = { s.sce with live := image.map Copy.fresh, fading := s.sce.live }
  swu : v.swu = { s.swu with
    pending := none
    crossfade := some { length := crossfadeLength p.req image, elapsed := 0, served := p.req
                        reversed := false, reversal := none, reversalFresh := false } }
  lines : ∀ l, v.dlu.lines.get l = s.boundLine (image.map Copy.fresh) p.req.target l
  dlu : v.dlu = { s.dlu with lines := v.dlu.lines }
  cch : v.cch = s.cch
  tck : v.tck = s.tck
  tun : v.tun = if s.tun.source = .follow ∧ (s.engaged = true ∨ s.tun.mode = .background) then
    s.tun.restartWindow else s.tun

theorem Copy.map_ofImage (image : Option Image) : image.map Copy.ofImage = image.map Copy.fresh :=
  congrArg (fun f => image.map f) (funext Copy.ofImage_eq)

theorem State.startCrossfade_started {p : Pending} {slot : Option SlotNo} {image : Option Image}
    (hp : s.swu.pending = some p) (hslot : (p.req.target.bind fun n => s.stg.holding n) = slot)
    (himage : (slot.bind fun i => (s.stg.slots.get i).image) = image)
    (hready : ∀ i, slot = some i → (s.stg.slots.get i).state = .ready)
    (hcopy : (image.map Copy.fresh).isSome = true → p.req.target.isSome = true) :
    ∃ v, s.Started p slot image v ∧ s.startCrossfade =
      if crossfadeLength p.req image = 0 then v.completeCrossfade false else v := by
  obtain ⟨u, ⟨V, L, hV, hL, hu⟩, heq⟩ := State.startCrossfade_eq p slot image hp hslot himage hready
  rw [Copy.map_ofImage] at hu hL
  have hlines (l) : u.syncLines.dlu.lines.get l = s.boundLine (image.map Copy.fresh) p.req.target l := by
    rw [State.syncLines_handed, ← State.boundLine_eq hcopy, ← hL, hu]
  refine ⟨_, ?_, heq⟩
  constructor
  case slots => simpa [hu] using hV
  case queues => simp [hu]
  case sce => simp [hu]
  case swu => simp [hu]
  case lines => simpa using hlines
  case dlu =>
    have hkept : u.syncLines.tunerSceneChange.dlu = u.syncLines.dlu := by simp
    exact hkept.trans ((State.syncLines_dlu_eq u).trans (by rw [hkept, hu]))
  case cch => simp [hu]
  case tck => simp [hu]
  case tun =>
    rw [State.tunerSceneChange_tun]
    simp [hu, State.engaged]

theorem crossfadeLength_eq (r : Request) (image : Option Image) : crossfadeLength r image =
    match r.override, image with
    | some c, _ => [0, 64, 128, 256, 512, 1024, 2048].getD c 4096
    | none, some im => [0, 64, 128, 256, 512, 1024, 2048].getD im.record.fadeCode.toNat 4096
    | none, none => 256 := by
  unfold crossfadeLength
  cases r.override with
  | some c => exact Config.fadeLength_eq c
  | none =>
    cases image with
    | none => rfl
    | some im => exact Config.fadeLength_eq _

section

variable {p : Pending} {slot : Option SlotNo} {image : Option Image} {v : State}

/-- The slot of the target is LIVE behind a start, a cut included. -/
theorem State.Started.target (hv : s.Started p slot image v) {i : SlotNo} (hi : slot = some i) :
    s.stg.startedSlot slot i =
        { s.stg.slots.get i with state := .live, pinned := false, demanded := false } ∧
      (v.completeCrossfade false).stg.slots.get i = s.stg.startedSlot slot i := by
  have hslot : s.stg.startedSlot slot i =
      { s.stg.slots.get i with state := .live, pinned := false, demanded := false } := if_pos hi
  refine ⟨hslot, ?_⟩
  rw [State.completeCrossfade_stg (by rw [hv.swu]), ← hv.slots]
  split
  · rfl
  · next k hk =>
    have hne : k ≠ i := fun e => by
      have hfading := Stg.fadingSlot_state hk
      rw [e, hv.slots, hslot] at hfading
      cases hfading
    exact (upd_get _ _ _ _).trans (if_neg hne)

/-- The queues of the loader behind a start, a cut included. -/
theorem State.Started.completed_queues (hv : s.Started p slot image v) :
    (v.completeCrossfade false).stg.armQueue = s.stg.armQueue ∧
      (v.completeCrossfade false).stg.loaderWaits = s.stg.loaderWaits := by
  rw [← hv.queues.1, ← hv.queues.2.1, State.completeCrossfade_stg (by rw [hv.swu])]
  split <;> exact ⟨rfl, rfl⟩

/-- The lines are all that changes of DLU, a cut included. -/
theorem State.Started.completed_dlu (hv : s.Started p slot image v) :
    (v.completeCrossfade false).dlu = { s.dlu with lines := (v.completeCrossfade false).dlu.lines } := by
  obtain ⟨ls, hls⟩ := State.completeCrossfade_dlu (s := v) (by rw [hv.swu]) false
  rw [hls, hv.dlu]

/-- The slots behind a start: the slot that was LIVE is FADING, and the others are kept. -/
theorem State.Started.others (hv : s.Started p slot image v)
    (hready : ∀ i, slot = some i → (s.stg.slots.get i).state = .ready) :
    (∀ j, s.stg.liveSlot = some j →
      v.stg.slots.get j = { s.stg.slots.get j with state := .fading }) ∧
    ∀ j, slot ≠ some j → s.stg.liveSlot ≠ some j → v.stg.slots.get j = s.stg.slots.get j := by
  refine ⟨fun j hl => ?_, fun j hne hl => ?_⟩
  · have hne : slot ≠ some j := fun hj => by
      simpa [hready j hj] using Stg.liveSlot_state hl
    rw [hv.slots, Stg.startedSlot, if_neg hne, if_pos hl]
  · rw [hv.slots, Stg.startedSlot, if_neg hne, if_neg hl]

/-- The slots behind a cut: the slot that was LIVE is READY, at the front of the ready order. -/
theorem State.Started.cut_stg (hv : s.Started p slot image v) (hlegal : s.stg.Legal false)
    (hready : ∀ i, slot = some i → (s.stg.slots.get i).state = .ready) :
    (∀ j, s.stg.liveSlot = some j → (v.completeCrossfade false).stg.slots.get j =
      { s.stg.slots.get j with state := .ready }) ∧
    (∀ j, slot ≠ some j → s.stg.liveSlot ≠ some j →
      (v.completeCrossfade false).stg.slots.get j = s.stg.slots.get j) ∧
    (v.completeCrossfade false).stg.readyOrder = s.stg.liveSlot.toList ++
      s.stg.readyOrder.filter (fun j => slot ≠ some j ∧ s.stg.liveSlot ≠ some j) := by
  obtain ⟨hold, hother⟩ := hv.others hready
  obtain ⟨-, -, hqueue⟩ := hv.queues
  rw [State.completeCrossfade_stg (by rw [hv.swu]), Stg.started_fadingSlot hlegal hready hv.slots]
  cases hl : s.stg.liveSlot with
  | none =>
    refine ⟨nofun, fun j hne hj => hother j hne (by simp [hl]), ?_⟩
    simp [hqueue]
  | some k =>
    refine ⟨fun j hj => ?_, fun j hne hj => ?_, ?_⟩
    · obtain rfl := Option.some.inj hj
      exact (upd_get_same _ _ _).trans (by rw [hold k hl])
    · exact (upd_get _ _ _ _).trans ((if_neg fun e => hj (congrArg some e)).trans
        (hother j hne (by rw [hl]; exact hj)))
    · simp only [hqueue, List.filter_filter]
      refine congrArg (k :: ·) (List.filter_congr fun j _ => ?_)
      by_cases e : k = j
      · simp [e]
      · simp [e, Ne.symm e]

/-- The channel behind a cut: the report of the switch served at once. -/
theorem State.Started.cut_cch (hv : s.Started p slot image v) (hlegal : s.stg.Legal false)
    (hready : ∀ i, slot = some i → (s.stg.slots.get i).state = .ready)
    (hscene : (slot.bind fun i => (s.stg.slots.get i).scene) = p.req.target) :
    (v.completeCrossfade false).cch = { s.cch with outbox := s.cch.outbox ++
      [switchRecord p.req .ok s.liveScene p.req.target false (s.sce.live.any Copy.edited)] } := by
  have hfading : v.fadingScene = s.liveScene := by
    simp only [State.fadingScene, State.liveScene, Stg.started_fadingSlot hlegal hready hv.slots, hv.slots,
      Stg.startedSlot_scene]
  have hlive : v.liveScene = p.req.target := by
    simp only [State.liveScene, Stg.started_liveSlot hlegal hv.slots, hv.slots, Stg.startedSlot_scene, hscene]
  rw [State.completeCrossfade_cch (by rw [hv.swu]), hv.cch, hfading, hlive, hv.sce]
  rfl

theorem State.Started.cut_line (hv : s.Started p slot image v) (hr : s.InRange) (l : LineNo) :
    (v.completeCrossfade false).dlu.lines.get l =
      (s.boundLine (image.map Copy.fresh) p.req.target l).cut := by
  rw [State.completeCrossfade_lines false (by rw [hv.swu]), hv.lines, Line.release_eq_cut, hv.tck, hv.sce]
  exact State.boundLine_cut hr l rfl

end

/-- Settles O41: the test that fails, and the blocks behind a start and a cut. -/
theorem crossfadeStarts : Obligations.CrossfadeStarts := by
  intro p s hs ho hb htested hx hp
  have hexec := hs.startTested ho hb htested hx
  refine ⟨fun hfail => ?_, fun slot image hpassed hfresh hwhich => ?_⟩
  · rw [hexec, State.startReady_false hp hfail, if_neg (by simp)]
  dsimp only
  have hslot : (p.req.target.bind fun n => s.stg.holding n) = slot := by
    rcases hwhich with ⟨hn, rfl, -⟩ | ⟨n, i, im, hn, rfl, -, hh, -, -⟩
    · simp [hn]
    · simp [hn, hh]
  have himage : (slot.bind fun i => (s.stg.slots.get i).image) = image := by
    rcases hwhich with ⟨-, rfl, rfl⟩ | ⟨n, i, im, -, rfl, rfl, -, -, him⟩
    · rfl
    · simpa using him
  have hready : ∀ i, slot = some i → (s.stg.slots.get i).state = .ready := by
    rcases hwhich with ⟨-, rfl, -⟩ | ⟨n, i, im, -, rfl, -, -, hst, -⟩
    · simp
    · exact fun j hj => Option.some.inj hj ▸ hst
  have hstart : s.startReady = true := by
    rcases hwhich with ⟨hn, -, -⟩ | ⟨n, i, im, hn, -, -, hh, hst, -⟩
    · simp [State.startReady, hx, hp, hpassed, hfresh, hn]
    · simp [State.startReady, hx, hp, hpassed, hfresh, hn, hh, hst]
  have hcopy : (image.map Copy.fresh).isSome = true → p.req.target.isSome = true := by
    rcases hwhich with ⟨-, -, rfl⟩ | ⟨n, i, im, hn, -, -, -, -, -⟩
    · exact fun h => Bool.noConfusion h
    · exact fun _ => by rw [hn]; rfl
  rw [hstart, if_pos rfl] at hexec
  have hscene : (slot.bind fun i => (s.stg.slots.get i).scene) = p.req.target := by
    rcases hwhich with ⟨hn, rfl, -⟩ | ⟨n, i, im, hn, rfl, -, hh, -, -⟩
    · exact hn.symm
    · exact (Stg.holding_scene hh).trans hn.symm
  obtain ⟨v, hv, heq⟩ := State.startCrossfade_started hp hslot himage hready hcopy
  have hlegal (h : s.SlotsLegal) : s.stg.Legal false := by
    simpa [hx] using s.slotsLegal_iff.mp h
  have hlength := crossfadeLength_eq p.req image
  refine ⟨_, hexec, fun i hi => ?_, ?_, ?_, ?_, by simp, by simp, by simp, by simp, by simp, by simp, ?_,
    fun hne => ?_, fun hzero hsl hr => ?_⟩
  · rw [State.deliver_stg, heq, ← (hv.target hi).1]
    split
    · exact (hv.target hi).2
    · exact hv.slots i
  · rw [State.deliver_stg, heq]
    split
    · exact hv.completed_queues.1
    · exact hv.queues.1
  · rw [State.deliver_stg, heq]
    split
    · exact hv.completed_queues.2
    · exact hv.queues.2.1
  · rw [State.deliver_dlu, heq]
    split
    · exact hv.completed_dlu
    · exact hv.dlu
  · rw [State.deliver_tun, State.startCrossfade_tun hp]
  · have hcross : s.startCrossfade = v := heq.trans (if_neg fun h => hne (hlength.symm.trans h))
    obtain ⟨hold, hother⟩ := hv.others hready
    have hswu := hv.swu
    rw [hlength] at hswu
    rw [hcross, State.deliver_of_empty (by rw [hv.cch]; exact hs.reported)]
    exact ⟨hswu, hv.sce, hold, hother, hv.queues.2.2, hv.lines, hv.cch⟩
  · have hcross : s.startCrossfade = v.completeCrossfade false := heq.trans (if_pos (hlength.trans hzero))
    obtain ⟨hold, hother, hqueue⟩ := hv.cut_stg (hlegal hsl) hready
    obtain ⟨hsce, hswu⟩ := State.completeCrossfade_sce (s := v) (by rw [hv.swu]) false
    rw [hcross, State.deliver_swu, State.deliver_sce, State.deliver_stg, State.deliver_dlu]
    refine ⟨by rw [hswu, hv.swu, ← hx], by rw [hsce, hv.sce], hold, hother, hqueue, hv.cut_line hr,
      State.deliver_cch hs.reported (hv.cut_cch (hlegal hsl) hready hscene)⟩

end Sys2Proof.Machine


/-! PROOF. The arithmetic of a frame in closed form: the operations of chapter 5, each stage kind and the
crossfade mix (R73, R75–R79, R96–R106). -/

namespace Sys2Proof.Machine

/-! ### The operations -/

theorem clampClip_eq (x : Int) : clampClip x =
    ⟨max (-8388608) (min x 8388607), if max (-8388608) (min x 8388607) = x then 0 else 1⟩ := rfl

theorem crossMix_between {a b w : Int} (h0 : 0 ≤ w) (h1 : w ≤ 32768) :
    min a b ≤ crossMix a b w ∧ crossMix a b w ≤ max a b := by
  unfold crossMix
  rcases le_total a b with h | h
  · rw [min_eq_left h, max_eq_right h]
    have low : a * 32768 ≤ a * w + b * (32768 - w) := by nlinarith
    have high : a * w + b * (32768 - w) ≤ b * 32768 := by nlinarith
    omega
  · rw [min_eq_right h, max_eq_left h]
    have low : b * 32768 ≤ a * w + b * (32768 - w) := by nlinarith
    have high : a * w + b * (32768 - w) ≤ a * 32768 := by nlinarith
    omega

theorem crossMix_zero (a b : Int) : crossMix a b 0 = b := by
  unfold crossMix
  omega

theorem crossMix_full (a b : Int) : crossMix a b 32768 = a := by
  unfold crossMix
  omega

/-- The shaper by its segment and the offset in it. -/
theorem shaper_eq (points : Nat → Int) (gain sag x : Int) :
    let v := (x * gain + 128) / 256 - sag
    let u := max (-8388608) (min v 8388607) + 8388608
    let k := (u / 32768).toNat
    (shaper points gain sag x).val =
        points k + ((points (k + 1) - points k) * (u - 32768 * k) + 16384) / 32768 ∧
      (shaper points gain sag x).clips = (if max (-8388608) (min v 8388607) = v then 0 else 1) ∧
      min (points k) (points (k + 1)) ≤ (shaper points gain sag x).val ∧
      (shaper points gain sag x).val ≤ max (points k) (points (k + 1)) := by
  have hgain : rounded (x * gain) 256 = (x * gain + 128) / 256 := rounded_even _ 128
  unfold shaper shapeLookup
  simp only [hgain, clampClip_eq]
  generalize (x * gain + 128) / 256 - sag = v
  have hu : 0 ≤ max (-8388608) (min v 8388607) + 8388608 := by omega
  generalize max (-8388608) (min v 8388607) + 8388608 = u at hu ⊢
  have hoffset : u % 32768 = u - 32768 * ((u / 32768).toNat : Int) := by omega
  have hval : rounded ((points ((u / 32768).toNat + 1) - points (u / 32768).toNat) * (u % 32768)) 32768 =
      ((points ((u / 32768).toNat + 1) - points (u / 32768).toNat) * (u % 32768) + 16384) / 32768 :=
    rounded_even _ 16384
  rw [hval]
  exact ⟨by rw [hoffset], trivial, rounded_line_between _ _ _ (by omega) (by omega)⟩

theorem envelope_eq (ka kr e y : Int) : envelope ka kr e y =
    e + ((min 8388607 (y.natAbs : Int) - e) * (if e < min 8388607 (y.natAbs : Int) then ka else kr) + 16384)
      / 32768 := by
  unfold envelope
  simp only [share_eq]

theorem levelStep_eq (y level : Int) : levelStep y level = clampClip ((y * level + 16384) / 32768) := by
  rw [levelStep, share_eq]

theorem biquad_eq (c : Coeffs) (h : Biquad) (x : Int) :
    let y := clampClip
      ((c.b0 * x + c.b1 * h.x1 + c.b2 * h.x2 - c.a1 * h.y1 - c.a2 * h.y2 + 2097152) / 4194304)
    biquad c h x = (y, { x1 := x, x2 := h.x1, y1 := y.val, y2 := h.y1 }) := by
  have hround (a : Int) : rounded a 4194304 = (a + 2097152) / 4194304 := rounded_even a 2097152
  simp only [biquad, hround]

theorem fir_eq (taps : List Word24) (hist : List Int) (x : Int) : fir taps hist x = clampClip
    ((((List.range taps.length).map fun k => (taps.getD k 0).toInt * (x :: hist).getD k 0).sum + 4194304)
      / 8388608) := by
  rw [fir, firSum_eq, show ∀ a, rounded a 8388608 = (a + 4194304) / 8388608 from
    fun a => rounded_even a 4194304]

/-! ### The stage kinds -/

/-- The gain of a ramp in its next frame (R73). -/
theorem NoiseGate.ramp_eq (g : NoiseGate) (dest : Int) :
    (if 16 * g.len ≤ g.k + 1 then dest
      else g.start + rounded ((dest - g.start) * (g.k + 1 : Nat)) (16 * g.len : Nat)) =
    if 16 * g.len ≤ g.k + 1 then dest
      else g.start + ((dest - g.start) * (g.k + 1) + 8 * g.len) / (16 * g.len) := by
  have hlen : ((16 * g.len : Nat) : Int) = 2 * (8 * g.len) := by push_cast; ring
  rw [hlen, rounded_even, ← hlen]
  push_cast
  rfl

/-- A noise gate in a frame, by its state. -/
theorem NoiseGate.frame_eq (g : NoiseGate) (x : Int) :
    let ramp : Int → Int := fun dest =>
      if 16 * g.len ≤ g.k + 1 then dest
      else g.start + ((dest - g.start) * (g.k + 1) + 8 * g.len) / (16 * g.len)
    let gain := match g.st with
      | .opened => 32768 | .hold => 32768 | .closed => 0
      | .attack => ramp 32768 | .release => ramp 0
    let k := match g.st with
      | .opened => g.k | .hold => g.k | .closed => g.k
      | .attack => g.k + 1 | .release => g.k + 1
    g.frame x = { g with peak := max g.peak x.natAbs, gain := gain, k := k } := by
  have hattack := g.ramp_eq 32768
  have hrelease := g.ramp_eq 0
  unfold NoiseGate.frame
  cases g.st with
  | opened => rfl
  | hold => rfl
  | closed => rfl
  | attack => simp only [← hattack]
  | release => simp only [← hrelease]

theorem lfoTriangle_eq (n pos : Nat) :
    lfoTriangle n pos = (131072 * (min pos (n - pos) : Nat) + n) / (2 * n) := by
  unfold lfoTriangle rounded
  rw [show (2 : Int) * (65536 * (min pos (n - pos) : Nat)) = 131072 * (min pos (n - pos) : Nat) by ring]

theorem modDelay_eq (st : Stage) (pos : Nat) :
    let n := 4800000 / (st.val 0).toNat
    let t : Int := (131072 * (min pos (n - pos) : Nat) + n) / (2 * n)
    modDelay st pos = max 256 (min (256 * st.val 2 + (256 * st.val 1 * t + 16384) / 32768) 524032) := by
  unfold modDelay
  rw [lfoTriangle_eq, show ∀ a, rounded a 32768 = (a + 16384) / 32768 from fun a => rounded_even a 16384]
  rfl

/-- The tap that the LFO places in the memory of a MOD stage, delay `d` in 1/256 frame (R76). -/
def modTap (mem : List Int) (d : Int) : Int :=
  mem.getD ((d / 256).toNat - 1) 0 +
    rounded ((mem.getD (d / 256).toNat 0 - mem.getD ((d / 256).toNat - 1) 0) * (d % 256)) 256

theorem modTap_eq (mem : List Int) (d : Int) :
    let sample : Int → Int := fun j => mem.getD (j - 1).toNat 0
    let i := d / 256
    modTap mem d = sample i + ((sample (i + 1) - sample i) * (d - 256 * i) + 128) / 256 := by
  dsimp only
  have hround (a : Int) : rounded a 256 = (a + 128) / 256 := rounded_even a 128
  rw [modTap, hround, show (d / 256).toNat - 1 = (d / 256 - 1).toNat by omega,
    show d / 256 + 1 - 1 = d / 256 by omega, Int.emod_def]

theorem Stage.process_mod {st : Stage} {mem : List Int} {pos : Nat} (hk : st.kind = .mod)
    (hst : st.st = .mod mem pos) (f : FrameIn) (taps : List Word24) (x : Int) :
    st.process f taps x =
      let tap := modTap mem (modDelay st pos)
      let w := clampClip (x + share tap (st.val 4))
      ⟨.mod ((w.val :: mem).take 2048) (if pos + 1 < 4800000 / (st.val 0).toNat then pos + 1 else 0),
        x + share (tap - x) (st.val 3), w.clips, 0⟩ := by
  simp only [Stage.process, hk, hst]
  rfl

/-- Settles O45: each operation, and each stage kind by the operations. -/
theorem stageAndMixArithmetic : Obligations.StageAndMixArithmetic := by
  refine ⟨fun a b w h0 h1 => ⟨rfl, (crossMix_between h0 h1).1, (crossMix_between h0 h1).2, crossMix_zero a b,
      crossMix_full a b⟩, shaper_eq, share_eq, fun ka kr e y ha0 ha1 hr0 hr1 => ?_, fun y level => ?_,
    fun c h x => ?_, fun taps hist x => ?_, fun st f taps x => ⟨fun g hk hst => ?_, fun h hk hst => ?_,
      fun hk hst => ?_, fun pre e t1 t2 t3 hk hst => ?_, fun hist hk hst => ?_, fun mem pos hk hst => ?_,
      fun hk hst => ?_, fun hk hst => ?_, fun hk hst => ?_⟩⟩
  · dsimp only
    have hk : 0 ≤ (if e < min 8388607 (y.natAbs : Int) then ka else kr) ∧
        (if e < min 8388607 (y.natAbs : Int) then ka else kr) ≤ 32767 := by
      split <;> constructor <;> assumption
    rw [envelope_eq]
    exact ⟨rfl, rounded_line_between _ _ _ hk.1 hk.2⟩
  · rw [levelStep_eq]
    exact ⟨rfl, rfl⟩
  · rw [biquad_eq]
    exact ⟨rfl, rfl, rfl⟩
  · rw [fir_eq]
    exact ⟨rfl, rfl⟩
  · simp only [Stage.process, hk, hst, NoiseGate.frame_eq, share_eq] <;> rfl
  · simp only [Stage.process, hk, hst]
    rfl
  · simp only [Stage.process, hk, hst]
  · simp only [Stage.process, hk, hst]
    rfl
  · simp only [Stage.process, hk, hst]
  · dsimp only
    rw [Stage.process_mod hk hst, modTap_eq, modDelay_eq]
    simp only [share_eq, clampClip_eq]
  · simp only [Stage.process, hk, hst]
  · simp only [Stage.process, hk, hst, share_eq, clampClip_eq]
  · simp only [Stage.process, hk, hst, share_eq, clampClip_eq]

end Sys2Proof.Machine


/-! PROOF. Footswitch events: a press, a hold event and a release, with the dispatch each makes and the
expression changes behind it (R148–R155, R157, R159, R166). -/

namespace Sys2Proof.Machine

variable {s : State}

/-! ### The FIFO behind an action -/

theorem State.pop_fifo (p : PopBy) (s : State) : (s.pop p).1.cch.fifo = s.cch.fifo := by
  rcases List.eq_nil_or_concat s.swu.stack with h | ⟨es, e, h⟩
  · rw [State.pop_empty h]
  · exact (State.pop_leaves (by rw [h, List.concat_eq_append]) p).2.1

theorem State.tapPeriod_fifo (src : Source) (tag : Byte) (s : State) :
    (s.tapPeriod src tag).cch.fifo = s.cch.fifo := by
  unfold State.tapPeriod
  dsimp only
  (repeat' split) <;> simp [State.tempoReport, State.raise]

theorem State.tapEvent_fifo (src : Source) (tag : Byte) (s : State) :
    (s.tapEvent src tag).1.cch.fifo = s.cch.fifo := by
  unfold State.tapEvent
  dsimp only
  (repeat' split) <;> simp [State.tapPeriod_fifo]

theorem State.cueStart_fifo (l : Fin 16) (countIn : Nat) (tag : Byte) (s : State) :
    (s.cueStart l countIn tag).1.cch.fifo = s.cch.fifo := by
  unfold State.cueStart
  split
  · rfl
  · exact State.stopList_fifo s

theorem State.cueOp_fifo (op : CueOp) (s : State) : (s.cueOp op).1.cch.fifo = s.cch.fifo := by
  unfold State.cueOp State.holdOp
  (repeat' split) <;> simp [State.stopList_fifo]

theorem State.momentaryPush_fifo (g : GateNo) (gate : Gate) (d : Dispatch) (s : State) :
    (s.momentaryPush g gate d).1.cch.fifo = s.cch.fifo := by
  have hmade := State.switchRequest_fifo (gateRequest g gate .none d) (s.push .momentary d.owner)
  unfold State.momentaryPush
  split
  · rfl
  · dsimp only
    split <;> simpa using hmade

theorem State.gateAction_fifo (g : GateNo) (gate : Gate) (d : Dispatch) (s : State) :
    (s.gateAction g gate d).1.cch.fifo = s.cch.fifo := by
  unfold State.gateAction
  split
  case h_1 => exact State.baseSwitch_fifo _ _
  case h_2 =>
    unfold State.momentaryGate
    split
    · exact State.baseSwitch_fifo _ _
    · exact State.momentaryPush_fifo _ _ _ _
  case h_3 => exact State.pop_fifo _ _
  case h_4 =>
    unfold State.tunerGate
    (repeat' split) <;> simp [State.gatePop, State.pop_fifo]
  case h_5 => simp
  case h_6 =>
    unfold State.cueStartGate
    split
    · exact State.cueStart_fifo _ _ _ _
    · rfl
  case h_7 =>
    unfold State.cueOpGate
    split
    · exact State.cueOp_fifo _ _
    · rfl
  case h_8 => exact State.tapEvent_fifo _ _ _

theorem State.dispatch_fifo (d : Dispatch) (g : GateNo) (s : State) :
    (s.dispatch d g).1.cch.fifo = s.cch.fifo := by
  unfold State.dispatch State.dispatchElse
  (repeat' split) <;> simp [State.gateAction_fifo]

theorem State.footDispatch_fifo (f : SwitchNo) (down : Bool) (event : Nat) (g : GateNo) (s : State) :
    (s.footDispatch f down event g).cch.fifo = s.cch.fifo := by
  unfold State.footDispatch
  dsimp only
  split
  · exact State.dispatch_fifo _ _ _
  · exact State.dispatch_fifo _ _ _

theorem State.deliver_fifo (s : State) : s.deliver.cch.fifo = s.cch.fifo := by
  simp [State.deliver_eq]

/-! ### The dispatch by a footswitch (R159) -/

theorem reportsGate_iff (reporting : Bool) (c : Code) : reportsGate reporting c = true ↔
    ¬ (c = .ok ∨ c = .accepted ∨ c = .already ∨ (c = .skipped ∧ reporting = false)) := by
  unfold reportsGate
  cases c <;> simp

theorem State.gateRefusal_none_iff (f : SwitchNo) (down : Bool) (event : Nat) (g : GateNo) :
    s.gateRefusal { source := .foot, switch := some f, down := down, event := event, tag := 0 } g = none ↔
      ¬ (s.tbm.gateLimit ≤ g ∨ (s.tbm.gate g).present = false ∨ 1 < (s.tbm.gate g).level) := by
  unfold State.gateRefusal
  (repeat' split) <;> simp_all [Source.level]

/-- The else gate that a dispatch by a footswitch reaches. -/
theorem State.elseReached_foot (f : SwitchNo) (down : Bool) (event : Nat) (g : GateNo) :
    s.elseReached { source := .foot, switch := some f, down := down, event := event, tag := 0 } g =
      if s.tbm.gateLimit ≤ g ∨ (s.tbm.gate g).present = false ∨ 1 < (s.tbm.gate g).level
          ∨ s.conditionHolds (s.tbm.gate g).condition = true then none
      else (s.tbm.gate g).elseGate := by
  have href := s.gateRefusal_none_iff f down event g
  unfold State.elseReached
  split
  · next c hc =>
    have hrefused := (not_congr href).mp (by rw [hc]; exact Option.some_ne_none c)
    rw [if_pos]
    tauto
  · next hc =>
    have hpass := href.mp hc
    split
    · next hcond => rw [if_pos (by tauto)]
    · next hcond => rw [if_neg (by tauto)]

/-- A gate at or above the gate limit is refused, with its report. -/
theorem State.footDispatch_limit {f : SwitchNo} {g : GateNo} (h : s.tbm.gateLimit ≤ g) (down : Bool)
    (event : Nat) : s.footDispatch f down event g = { s with cch := { s.cch with
      outbox := s.cch.outbox ++ [gateRecord f event g none .limit] } } := by
  have hrefusal : s.gateRefusal
      { source := .foot, switch := some f, down := down, event := event, tag := 0 } g = some .limit := by
    simp [State.gateRefusal, h]
  simp only [State.footDispatch, State.dispatch, State.elseReached, hrefusal]
  rfl

/-! ### The press (R151) -/

/-- A footswitch event noted: the switch as it stands behind, what waits, and the PEDAL report. -/
def State.noted (event : Nat) (f : SwitchNo) (deferred : Bool) (y : Footswitch) (behind : List PedalEvent)
    (s : State) : State :=
  { s with
    pmn := { s.pmn with switches := upd s.pmn.switches f y, events := behind }
    cch := { s.cch with outbox := if s.pmn.reporting then [pedalRecord event f deferred] else [] } }

/-- The reports behind an event noted alone. -/
theorem State.noted_deliver (hs : s.cch.outbox = []) (event : Nat) (f : SwitchNo) (deferred : Bool)
    (y : Footswitch) (behind : List PedalEvent) :
    (s.noted event f deferred y behind).deliver =
      ({ s with pmn := { s.pmn with switches := upd s.pmn.switches f y, events := behind } } :
        State).reporting (if s.pmn.reporting then [pedalRecord event f deferred] else []) := by
  rw [State.deliver_raised (s := s) hs (by rw [hs]; rfl)]
  rfl

/-- What a press is that is the next event of the open end of a frame. -/
theorem State.Settled.takesPress (hs : s.Settled) (ho : s.frame.isOpen = true) {f : SwitchNo}
    {behind : List PedalEvent} (he : s.pmn.events = .press f :: behind) :
    exec (.footswitchPress f) s = .next ((({ s with pmn := { s.pmn with events := behind } } :
      State).pressEvent f).drainExpressions).deliver := by
  refine (hs.act_settle (State.pedalStep (.press f))).trans ?_
  rw [State.pedalStep, he]
  exact congrArg _ (if_pos ⟨rfl, ho⟩)

theorem State.pressEvent_eq (hs : s.cch.outbox = []) (f : SwitchNo) (behind : List PedalEvent) :
    ({ s with pmn := { s.pmn with events := behind } } : State).pressEvent f =
      match s.tbm.holdGate f with
      | some _ => s.noted 0 f true { s.pmn.switches.get f with
          state := .pressed, deferred := true, hold := 150 * s.tbm.holdCode f, fresh := true } behind
      | none => (s.noted 0 f false { s.pmn.switches.get f with state := .pressed } behind).footGate f true 0
          (s.tbm.pressGate f) := by
  unfold State.pressEvent
  cases hg : s.tbm.holdGate f with
  | some g =>
    simp [State.pedalReport_eq, State.setSwitch, State.mapPmn, State.noted, hs, holdBlocks, mul_comm,
      upd_upd]
  | none =>
    simp [State.pedalReport_eq, State.setSwitch, State.mapPmn, State.noted, hs]

/-- Settles O46: the dispatch of a footswitch, and the three ways of a press, with what waits behind it. -/
theorem footswitchPressed : Obligations.FootswitchPressed := by
  refine ⟨fun f down event g s => ?_, fun f behind s hs ho he hbehind => ?_,
    fun f changes rest s hs ho he hrest => ?_⟩
  · have hreports := reportsGate_iff s.pmn.reporting
      (s.dispatch { source := .foot, switch := some f, down := down, event := event, tag := 0 } g).2
    refine ⟨fun hsilent => ?_, fun hsilent => ?_⟩
    · exact if_neg fun h => hreports.mp h hsilent
    · rw [← State.elseReached_foot f down event]
      exact if_pos (hreports.mpr hsilent)
  · have hexec := hs.takesPress ho he
    rw [State.pressEvent_eq hs.reported] at hexec
    refine ⟨fun g hg => ?_, fun hh hg => ?_, fun hh g hg => ⟨?_, ?_, fun hlimit => ?_⟩⟩
    · simp only [hg] at hexec
      rw [hexec, State.drainExpressions_of_none _ hbehind, State.noted_deliver hs.reported]
    · simp only [hh, hg, State.footGate] at hexec
      rw [hexec, State.drainExpressions_of_none _ hbehind, State.noted_deliver hs.reported]
    all_goals
      simp only [hh, hg, State.footGate] at hexec
      rw [State.drainExpressions_of_none _ (by simpa [State.noted] using hbehind)] at hexec
    · refine ⟨_, hexec, by simp [State.noted], by simp [State.noted], ?_⟩
      rw [State.deliver_fifo, State.footDispatch_fifo]
      rfl
    · exact hexec
    · rw [hexec, State.footDispatch_limit (by exact hlimit), State.deliver_raised (s := s)
        (rs := (if s.pmn.reporting then [pedalRecord 0 f false] else []) ++ [gateRecord f 0 g none .limit])
        hs.reported (by rw [hs.reported]; rfl)]
      rfl
  · have hexec := hs.takesPress ho he
    rw [State.pressEvent_eq hs.reported] at hexec
    refine ⟨fun g hg => ?_, fun hh => ⟨fun hg => ?_, fun g hg => ?_⟩⟩
    · simp only [hg] at hexec
      rwa [State.drainExpressions_eq changes rest hrest _ rfl] at hexec
    · simp only [hh, hg, State.footGate] at hexec
      rwa [State.drainExpressions_eq changes rest hrest _ rfl] at hexec
    · simp only [hh, hg, State.footGate] at hexec
      rwa [State.drainExpressions_eq changes rest hrest _ (by simp [State.noted])] at hexec

/-! ### The hold event (R152) -/

/-- The footswitches before footswitch `f` in number order are those below it. -/
theorem twelve_split : ∀ f : SwitchNo, twelve = twelve.take f.val ++ f :: twelve.drop (f.val + 1) ∧
    ∀ j ∈ twelve.take f.val, j < f := by decide

theorem Footswitch.holdDue_iff (x : Footswitch) :
    x.holdDue = true ↔ x.state = .pressed ∧ x.deferred = true ∧ x.hold = 0 := by
  simp [Footswitch.holdDue, and_assoc]

theorem Pmn.nextHold_of_lowest {p : Pmn} {f : SwitchNo} (h : (p.switches.get f).holdDue = true)
    (hlow : ∀ j, j < f → ¬ (p.switches.get j).holdDue = true) : p.nextHold = some f := by
  obtain ⟨hsplit, hbelow⟩ := twelve_split f
  exact List.find?_eq_some_iff_append.mpr ⟨h, _, _, hsplit, fun j hj => by
    simpa using hlow j (hbelow j hj)⟩

theorem State.holdEvent_eq (hs : s.cch.outbox = []) (f : SwitchNo) : s.holdEvent f =
    (s.noted 1 f false { s.pmn.switches.get f with deferred := false, state := .held } s.pmn.events).footGate
      f true 1 (s.tbm.holdGate f) := by
  unfold State.holdEvent
  simp [State.pedalReport_eq, State.setSwitch, State.mapPmn, State.noted, hs]

/-- Settles O47: the lowest footswitch due, and its dispatch by its hold gate. -/
theorem holdEventTaken : Obligations.HoldEventTaken := by
  intro f s hs ho hb x due hdue hlow
  have hnext : s.pmn.nextHold = some f := Pmn.nextHold_of_lowest ((Footswitch.holdDue_iff _).mpr hdue)
    fun j hj h => hlow j hj ((Footswitch.holdDue_iff _).mp h)
  have hexec : exec (.holdEvent f) s = .next (s.holdEvent f).deliver :=
    (hs.act_settle fun s => if s.holdDue f then (s.holdEvent f).deliver else s).trans
      (congrArg _ (if_pos (by simp [State.holdDue, State.atBoundary_of ho hb, hnext])))
  rw [State.holdEvent_eq hs.reported] at hexec
  refine ⟨⟨_, hexec, by simp [State.noted, x], by simp [State.noted], ?_⟩, fun g hg => ?_, fun hg => ?_⟩
  · rw [State.deliver_fifo]
    cases s.tbm.holdGate f with
    | none => rfl
    | some g => exact State.footDispatch_fifo f true 1 g _
  · simp only [hg, State.footGate] at hexec
    exact hexec
  · simp only [hg, State.footGate] at hexec
    rw [hexec, State.noted_deliver hs.reported]

/-! ### The release (R153, R166) -/

theorem State.Settled.takesRelease (hs : s.Settled) (ho : s.frame.isOpen = true) {f : SwitchNo}
    {behind : List PedalEvent} (he : s.pmn.events = .release f :: behind) :
    exec (.footswitchRelease f) s = .next ((({ s with pmn := { s.pmn with events := behind } } :
      State).releaseEvent f).drainExpressions).deliver := by
  refine (hs.act_settle (State.pedalStep (.release f))).trans ?_
  rw [State.pedalStep, he]
  exact congrArg _ (if_pos ⟨rfl, ho⟩)

/-- The release noted, before its owner release and its dispatch. -/
def State.releaseNoted (f : SwitchNo) (behind : List PedalEvent) (s : State) : State :=
  s.noted 2 f false { s.pmn.switches.get f with state := .released, deferred := false, hold := 0 } behind

/-- The release noted, with the owner release of an entry that the footswitch owns. -/
def State.ownerReleased (f : SwitchNo) (behind : List PedalEvent) (s : State) : State :=
  if s.owned f then (s.releaseNoted f behind).ownerRelease f else s.releaseNoted f behind

@[simp] theorem State.ownerReleased_kept (f : SwitchNo) (behind : List PedalEvent) :
    (s.ownerReleased f behind).tbm = s.tbm ∧ (s.ownerReleased f behind).sli = s.sli ∧
      (s.ownerReleased f behind).pmn = (s.releaseNoted f behind).pmn := by
  unfold State.ownerReleased
  split <;> simp [State.releaseNoted, State.noted]

theorem State.releaseEvent_eq (hs : s.cch.outbox = []) (f : SwitchNo) (behind : List PedalEvent) :
    ({ s with pmn := { s.pmn with events := behind } } : State).releaseEvent f =
      if (s.pmn.switches.get f).state = .pressed ∧ (s.pmn.switches.get f).deferred = true then
        (s.ownerReleased f behind).footGate f false 0 (s.tbm.pressGate f)
      else if s.owned f = true ∨ (s.pmn.switches.get f).state = .held then s.ownerReleased f behind
      else (s.ownerReleased f behind).footGate f false 2 (s.tbm.releaseGate f) := by
  have hnoted : ((({ s with pmn := { s.pmn with events := behind } } : State).setSwitch f fun x =>
      { x with state := .released, deferred := false, hold := 0 }).pedalReport 2 f.val false 0) =
      s.releaseNoted f behind := by
    simp [State.pedalReport_eq, State.setSwitch, State.mapPmn, State.releaseNoted, State.noted, hs]
  have hevent : ({ s with pmn := { s.pmn with events := behind } } : State).releaseEvent f =
      if (s.pmn.switches.get f).state = .pressed ∧ (s.pmn.switches.get f).deferred = true then
        (s.ownerReleased f behind).footGate f false 0 ((s.ownerReleased f behind).tbm.pressGate f)
      else if s.owned f = true ∨ (s.pmn.switches.get f).state = .held then s.ownerReleased f behind
      else (s.ownerReleased f behind).footGate f false 2
        ((s.ownerReleased f behind).tbm.releaseGate f) := by
    unfold State.releaseEvent
    dsimp only
    rw [hnoted]
    rfl
  rw [hevent, (State.ownerReleased_kept f behind).1]

theorem State.not_owned {f : SwitchNo} (h : ∀ e ∈ s.swu.stack, e.owner ≠ some f) : s.owned f = false := by
  simpa [State.owned] using h

theorem State.ownerReleased_none {f : SwitchNo} (h : ∀ e ∈ s.swu.stack, e.owner ≠ some f)
    (behind : List PedalEvent) : s.ownerReleased f behind = s.releaseNoted f behind :=
  if_neg (by simp [State.not_owned h])

/-- The owner release of the entry on top: a pop of the footswitch. -/
theorem State.ownerReleased_top {f : SwitchNo} {es : List StackEntry} {e : StackEntry}
    (h : s.swu.stack = es ++ [e]) (he : e.owner = some f) (behind : List PedalEvent) :
    s.owned f = true ∧ s.ownerReleased f behind =
      if s.swu.pending.any (fun p => p.req.target == e.saved) = true then
        (s.releaseNoted f behind).without es e
      else (((s.releaseNoted f behind).without es e).switchRequest
        { target := e.saved, source := .foot, quantize := .none, override := none, gate := none
          owner := some f, tag := 0 }).1 := by
  have howned : s.owned f = true := by simp [State.owned, h, he]
  have htop : (s.releaseNoted f behind).ownerRelease f =
      ((s.releaseNoted f behind).pop { source := .foot, gate := none, owner := some f, tag := 0 }).1 :=
    if_pos (by simp [State.releaseNoted, State.noted, h, he])
  refine ⟨howned, (if_pos howned).trans (htop.trans ?_)⟩
  rw [State.pop_eq (s := s.releaseNoted f behind) (es := es) (e := e) h]
  exact apply_ite Prod.fst _ _ _

/-- The owner release of a lower entry: the entry above takes its saved scene. -/
theorem State.ownerReleased_lower {f : SwitchNo} {es es' : List StackEntry} {e a z : StackEntry}
    (h : s.swu.stack = es ++ e :: a :: es') (he : e.owner = some f)
    (hes : ∀ e' ∈ es, e'.owner ≠ some f) (hz : (a :: es').getLast? = some z) (hzf : z.owner ≠ some f)
    (behind : List PedalEvent) :
    s.owned f = true ∧ s.ownerReleased f behind =
      (s.releaseNoted f behind).without (es ++ { a with saved := e.saved } :: es') e := by
  have howned : s.owned f = true := by simp [State.owned, h, he]
  have hlast : s.swu.stack.getLast? = some z := by
    rw [h, List.getLast?_append_of_ne_nil _ (by simp), List.getLast?_cons_cons, hz]
  have hlower : (s.releaseNoted f behind).ownerRelease f =
      (s.releaseNoted f behind).dropLower fun e => e.owner == some f :=
    if_neg (by simp [State.releaseNoted, State.noted, hlast, hzf])
  refine ⟨howned, (if_pos howned).trans (hlower.trans ?_)⟩
  have hdrop : dropInherit (fun e => e.owner == some f) s.swu.stack =
      es ++ { a with saved := e.saved } :: es' := by
    rw [h]
    exact dropInherit_split _ es e a es' (fun x hx => by simpa using hes x hx) (by simp [he])
  calc (s.releaseNoted f behind).dropLower (fun e => e.owner == some f)
      = ((s.releaseNoted f behind).mapSwu fun u =>
          { u with stack := es ++ { a with saved := e.saved } :: es' }).followTuner
          (s.releaseNoted f behind).tunerState :=
        congrArg (fun st => ((s.releaseNoted f behind).mapSwu fun u => { u with stack := st }).followTuner
          (s.releaseNoted f behind).tunerState) hdrop
    _ = _ := State.followTuner_removed _ e (s.releaseNoted f behind)
        ⟨es, a :: es', h, by simp⟩

/-- A release whatever its gates: the footswitch is RELEASED, and the FIFO is kept. -/
theorem State.releaseEvent_leaves (hs : s.cch.outbox = []) (f : SwitchNo) (behind : List PedalEvent) :
    let t := ({ s with pmn := { s.pmn with events := behind } } : State).releaseEvent f
    t.pmn = (s.releaseNoted f behind).pmn ∧ t.sli = s.sli ∧ t.cch.fifo = s.cch.fifo := by
  have hfifo : (s.ownerReleased f behind).cch.fifo = s.cch.fifo := by
    unfold State.ownerReleased State.ownerRelease
    (repeat' split) <;> simp [State.pop_fifo, State.releaseNoted, State.noted]
  have hgate (event : Nat) (o : Option GateNo) :
      ((s.ownerReleased f behind).footGate f false event o).cch.fifo = s.cch.fifo := by
    cases o with
    | none => exact hfifo
    | some g => exact (State.footDispatch_fifo _ _ _ _ _).trans hfifo
  dsimp only
  rw [State.releaseEvent_eq hs]
  (repeat' split) <;> simp [hfifo, hgate]

/-- A release with a gate to dispatch or none, by the state of the footswitch and what it owns. -/
theorem State.releaseEvent_cases (hs : s.cch.outbox = []) (f : SwitchNo) (behind : List PedalEvent) :
    let x := s.pmn.switches.get f
    let short := x.state = .pressed ∧ x.deferred = true
    let t := ({ s with pmn := { s.pmn with events := behind } } : State).releaseEvent f
    (short → ∀ g, s.tbm.pressGate f = some g → t = (s.ownerReleased f behind).footDispatch f false 0 g) ∧
    (short → s.tbm.pressGate f = none → t = s.ownerReleased f behind) ∧
    (¬ short → s.owned f = true ∨ x.state = .held → t = s.ownerReleased f behind) ∧
    (¬ short → s.owned f = false → x.state ≠ .held →
      (∀ g, s.tbm.releaseGate f = some g → t = (s.ownerReleased f behind).footDispatch f false 2 g) ∧
      (s.tbm.releaseGate f = none → t = s.ownerReleased f behind)) := by
  dsimp only
  rw [State.releaseEvent_eq hs]
  refine ⟨fun h g hg => ?_, fun h hg => ?_, fun h ho => ?_, fun h ho hh => ⟨fun g hg => ?_, fun hg => ?_⟩⟩
  · rw [if_pos h, hg]; rfl
  · rw [if_pos h, hg]; rfl
  · rw [if_neg h, if_pos ho]
  · rw [if_neg h, if_neg (by simp [ho, hh]), hg]; rfl
  · rw [if_neg h, if_neg (by simp [ho, hh]), hg]; rfl

/-- Settles O48: the owner release and the dispatch of a release, with what waits behind it. -/
theorem footswitchReleased : Obligations.FootswitchReleased := by
  refine ⟨fun f behind s hs ho he hbehind => ?_, fun f changes rest s hs ho he hrest => ?_⟩
  · have hexec := hs.takesRelease ho he
    obtain ⟨hpmn, hsli, hfifo⟩ := State.releaseEvent_leaves hs.reported f behind
    obtain ⟨-, hshort, hlong, hplain⟩ := State.releaseEvent_cases hs.reported f behind
    rw [State.drainExpressions_of_none _ (by rw [hpmn]; exact hbehind)] at hexec
    refine ⟨⟨_, hexec, by rw [State.deliver_pmn, hpmn]; rfl, by rw [State.deliver_sli, hsli],
      by rw [State.deliver_fifo, hfifo]⟩, fun hnone hstate => ?_, fun es e p hst hown hreason hp ht hd => ?_⟩
    · have hdone : ({ s with pmn := { s.pmn with events := behind } } : State).releaseEvent f =
          s.releaseNoted f behind := by
        rw [← State.ownerReleased_none hnone]
        rcases hstate with hheld | ⟨hp, hd, hg⟩ | ⟨hp, hd, hg⟩
        · exact hlong (by simp [hheld]) (.inr hheld)
        · exact hshort ⟨hp, hd⟩ hg
        · exact (hplain (by simp [hd]) (State.not_owned hnone) (by simp [hp])).2 hg
      rw [hexec, hdone]
      exact congrArg _ (State.noted_deliver hs.reported _ _ _ _ _)
    · obtain ⟨howned, htop⟩ := State.ownerReleased_top hst hown behind
      have hdone := hlong (by simp [hd]) (.inl howned)
      rw [htop, if_pos (by simp [hp, ht])] at hdone
      have hkept : (s.releaseNoted f behind).without es e =
          { s.releaseNoted f behind with swu := { s.swu with stack := es } } := by
        rw [State.without, if_neg (by simp [hreason])]
        rfl
      rw [hexec, hdone, hkept, State.deliver_raised (s := s) hs.reported
        (rs := if s.pmn.reporting then [pedalRecord 2 f false] else []) (by rw [hs.reported]; rfl)]
      rfl
  · have hexec := hs.takesRelease ho he
    obtain ⟨hpmn, -, -⟩ := State.releaseEvent_leaves hs.reported f
      (changes.map (fun c => PedalEvent.expression c.1 c.2) ++ rest)
    obtain ⟨hpress, hshort, hlong, hplain⟩ := State.releaseEvent_cases hs.reported f
      (changes.map (fun c => PedalEvent.expression c.1 c.2) ++ rest)
    rw [State.drainExpressions_eq changes rest hrest _ (by rw [hpmn]; rfl)] at hexec
    have ends {owned : State} (ho : s.owned f = true ∧ s.ownerReleased f
        (changes.map (fun c => PedalEvent.expression c.1 c.2) ++ rest) = owned) :
        ((s.pmn.switches.get f).state = .pressed ∧ (s.pmn.switches.get f).deferred = true → ∀ g,
          s.tbm.pressGate f = some g → exec (.footswitchRelease f) s =
            .next ((owned.footDispatch f false 0 g).thenChanges changes rest).deliver) ∧
        (¬ ((s.pmn.switches.get f).state = .pressed ∧ (s.pmn.switches.get f).deferred = true) ∨
          s.tbm.pressGate f = none →
            exec (.footswitchRelease f) s = .next (owned.thenChanges changes rest).deliver) := by
      obtain ⟨howned, rfl⟩ := ho
      refine ⟨fun h g hg => by rw [hexec, hpress h g hg], fun h => ?_⟩
      by_cases hs : (s.pmn.switches.get f).state = .pressed ∧ (s.pmn.switches.get f).deferred = true
      · rw [hexec, hshort hs (h.resolve_left (not_not.mpr hs))]
      · rw [hexec, hlong hs (.inl howned)]
    refine ⟨fun hnone => ?_, fun es e hst hown => ends (State.ownerReleased_top hst hown _),
      fun es e a es' z hst hown hes hz hzf => ends (State.ownerReleased_lower hst hown hes hz hzf _)⟩
    rw [State.ownerReleased_none hnone] at hpress hshort hlong hplain
    have hnot := State.not_owned hnone
    refine ⟨fun h g hg => by rw [hexec, hpress h g hg]; rfl, fun hp hd g hg => ?_, fun h => ?_⟩
    · rw [hexec, (hplain (by simp [hd]) hnot (by simp [hp])).1 g hg]
      rfl
    · rcases h with hheld | ⟨h, hg⟩ | ⟨hp, hd, hg⟩
      · rw [hexec, hlong (by simp [hheld]) (.inr hheld)]
        rfl
      · rw [hexec, hshort h hg]
        rfl
      · rw [hexec, (hplain (by simp [hd]) hnot (by simp [hp])).2 hg]
        rfl

end Sys2Proof.Machine


/-! PROOF. The rise of the phase with its beat boundary, the end of a click burst, and the tuner: measurement,
judgement, pitch and reports (R171–R180, R194–R199). -/

namespace Sys2Proof.Machine

variable {s : State}

/-! ### The beat boundary (R171, R172) -/

theorem State.Settled.takesBeat (hs : s.Settled) (ho : s.frame.isOpen = true)
    (hr : s.frame.riseDue = true) : exec .beatBoundary s = .next s.beat :=
  (hs.act_settle fun s => if s.frame.isOpen && s.frame.riseDue then s.beat else s).trans
    (congrArg _ (if_pos (by simp [ho, hr])))

/-- The state whose phase has been brought to 0 and whose beat has moved on. -/
def State.onNextBeat (s : State) : State :=
  { s with
    tck := { s.tck with phase := 0, beat := s.tck.nextBeat }
    frame := { s.frame with riseDue := false } }

theorem State.risePhase_advances (h : s.tck.period ≤ s.tck.phase + 1) :
    (s.mapFrame fun f => { f with riseDue := false }).risePhase =
      s.onNextBeat.raiseBoundary true (s.onNextBeat.tck.beat == 1) := if_pos h

theorem State.BoundaryRaised.advances {t : State} {beat : Nat} (h : s.BoundaryRaised (true = true) beat t) :
    s.BoundaryRaised True beat t := by
  simpa only using h

/-- Settles O49: a rise alone, and the blocks behind an advancing boundary. -/
theorem beatBoundaryTaken : Obligations.BeatBoundaryTaken := by
  refine ⟨fun s hs ho hr hbelow => ?_, fun s hs ho hr hreach => ?_⟩
  · rw [hs.takesBeat ho hr]
    have hrise : (s.mapFrame fun f => { f with riseDue := false }).risePhase = { s with
        tck := { s.tck with phase := s.tck.phase + 1 }
        frame := { s.frame with riseDue := false } } := if_neg (by simpa using hbelow)
    rw [State.beat, hrise, State.deliver_of_empty (by exact hs.reported)]
  · have hraised := State.raiseBoundary_raised (s := s.onNextBeat) hs.due true
    have htck := State.raiseBoundary_tck true (s.onNextBeat.tck.beat == 1) s.onNextBeat
    have hbeat : s.onNextBeat.tck.beat = if s.tck.meter ≤ s.tck.beat then 1 else s.tck.beat + 1 := rfl
    refine ⟨_, hs.takesBeat ho hr, ?_⟩
    rw [State.beat, State.risePhase_advances hreach,
      State.deliver_of_empty (by simpa [State.onNextBeat] using hs.reported)]
    refine ⟨by simp [State.onNextBeat], ?_, ?_, ?_, ?_, ?_, ?_, by simp [State.onNextBeat],
      by simp [State.onNextBeat], by simp [State.onNextBeat], by simp [State.onNextBeat],
      by simp [State.onNextBeat], by simp [State.onNextBeat], by simp [State.onNextBeat],
      by simp [State.onNextBeat]⟩
    · rw [htck]; rfl
    · rw [htck]; rfl
    · rw [htck]; rfl
    · rw [htck]; rfl
    · rw [htck]; rfl
    · rw [← hbeat]
      exact (hraised.congr rfl rfl rfl rfl rfl rfl rfl rfl rfl rfl).advances

/-! ### Measurement (R196, R197) -/

theorem Tun.measure_waits {x : Int} {t : Tun} (h : ¬ (t.previous.isSome = true ∧ t.armed = true ∧ 0 < x)) :
    t.measure x = { t with
      armed := t.armed || decide (x ≤ -8192), silence := t.silence + 1
      previous := some x, index := t.index + 1 } := by
  have hnot : (t.previous.isSome && t.armed && decide (0 < x)) = false := by
    simpa [and_assoc] using h
  simp only [Tun.measure, hnot]
  rfl

/-- The last four of a list that has grown at its back. -/
theorem drop_concat_four (l : List Int) (y : Int) :
    (l ++ [y]).drop (l.length + 1 - 4) = ((l ++ [y]).reverse.take 4).reverse := by
  rw [List.take_reverse, List.reverse_reverse, List.length_append, List.length_singleton]

/-- The window before its judgement at a crossing between `p` and `x` (R196). -/
def Tun.crossed (p x : Int) (t : Tun) : Tun :=
  let time := 256 * ((t.index : Int) - 1) + (512 * (-p) + (x - p)) / (2 * (x - p))
  { t with
    armed := false, lastCross := some time, silence := 0
    periods := match t.lastCross with
      | none => t.periods
      | some l => ((t.periods ++ [time - l]).reverse.take 4).reverse }

theorem Tun.cross_eq (p x : Int) (t : Tun) : t.cross p x = (t.crossed p x).judge := by
  unfold Tun.cross Tun.crossed
  dsimp only
  cases t.lastCross with
  | none => rfl
  | some l => simp only [drop_concat_four]

theorem Tun.judge_kept (t : Tun) : t.judge = { t with reading := t.judge.reading } := by
  unfold Tun.judge
  split
  · dsimp only
    (repeat' split) <;> rfl
  · rfl

theorem Tun.measure_crosses {p x : Int} {t : Tun} (hp : t.previous = some p) (ha : t.armed = true)
    (hx : 0 < x) : t.measure x = { (t.crossed p x).judge with previous := some x, index := t.index + 1 } := by
  have hcross : (t.previous.isSome && t.armed && decide (0 < x)) = true := by simp [hp, ha, hx]
  have harm : decide (x ≤ -Config.tunerArm) = false :=
    decide_eq_false (show ¬ x ≤ -8192 by omega)
  have hmeasure : t.measure x = { t.cross p x with
      armed := (t.cross p x).armed || decide (x ≤ -Config.tunerArm), previous := some x
      index := (t.cross p x).index + 1 } := by
    unfold Tun.measure
    dsimp only
    rw [hcross, if_pos rfl, hp]
    rfl
  rw [hmeasure, harm, Bool.or_false, Tun.cross_eq, Tun.judge_kept]
  rfl

theorem Tun.judge_open {t : Tun} (h : t.periods.length ≠ 4) : t.judge = t := by
  unfold Tun.judge
  split
  · next hp => exact absurd (by rw [hp]; rfl) h
  · rfl

theorem Tun.judge_closed {t : Tun} {a b c d : Int} (h : t.periods = [a, b, c, d]) :
    let sum := a + b + c + d
    let reading :=
      if sum < (max (max a b) (max c d) - min (min a b) (min c d)) * 128 then t.reading
      else if sum < 30720 ∨ 2457600 < sum then none
      else some (pitchOf sum.toNat t.reference)
    t.judge = { t with reading := reading } := by
  unfold Tun.judge
  rw [h]
  dsimp only
  by_cases hstable : (max (max a b) (max c d) - min (min a b) (min c d)) * 128 ≤ a + b + c + d
  · rw [if_pos hstable, if_neg (not_lt.mpr hstable)]
    by_cases hrange : 30720 ≤ a + b + c + d ∧ a + b + c + d ≤ 2457600
    · rw [if_pos hrange, if_neg (by omega)]
    · rw [if_neg hrange, if_pos (by omega)]
  · rw [if_neg hstable, if_pos (not_le.mp hstable), ← h]

/-! ### The pitch of a reading (R198) -/

/-- The pitch of a window in octaves over the reference, and its bounds for a window within range. -/
theorem octaves_bounds {sum r : Nat} (h1 : 30720 ≤ sum) (h2 : sum ≤ 2457600) (h3 : 430 ≤ r)
    (h4 : r ≤ 450) : -5 ≤ Real.logb 2 ((49152000 : ℝ) / sum / r) ∧
      Real.logb 2 ((49152000 : ℝ) / sum / r) ≤ 2 := by
  have hs1 : (30720 : ℝ) ≤ sum := by exact_mod_cast h1
  have hs2 : (sum : ℝ) ≤ 2457600 := by exact_mod_cast h2
  have hr1 : (430 : ℝ) ≤ r := by exact_mod_cast h3
  have hr2 : (r : ℝ) ≤ 450 := by exact_mod_cast h4
  have hpos : (0 : ℝ) < sum * r := by positivity
  have hlow : (2 : ℝ) ^ (-5 : ℝ) ≤ 49152000 / sum / r := by
    rw [div_div, le_div_iff₀ hpos, Real.rpow_neg (by norm_num)]
    norm_num
    nlinarith
  have hhigh : (49152000 : ℝ) / sum / r ≤ 2 ^ (2 : ℝ) := by
    rw [div_div, div_le_iff₀ hpos]
    norm_num
    nlinarith
  have hq : (0 : ℝ) < 49152000 / sum / r := by positivity
  exact ⟨(Real.le_logb_iff_rpow_le (by norm_num) hq).mpr hlow,
    (Real.logb_le_iff_le_rpow (by norm_num) hq).mpr hhigh⟩

theorem ratioAtLeast_octaves {sum r : Nat} (hs : 0 < sum) (hr : 0 < r) (k : Nat) (e : Int) :
    ratioAtLeast 49152000 (sum * r) k e = true ↔
      (e : ℝ) ≤ k * Real.logb 2 ((49152000 : ℝ) / sum / r) := by
  rw [ratioAtLeast_iff _ _ _ _ (by norm_num) (Nat.mul_pos hs hr), div_div]
  push_cast
  rfl

theorem noteNumber_eq {sum r : Nat} (h1 : 30720 ≤ sum) (h2 : sum ≤ 2457600) (h3 : 430 ≤ r)
    (h4 : r ≤ 450) :
    noteNumber sum r = ⌊12 * Real.logb 2 ((49152000 : ℝ) / sum / r) + 1 / 2⌋ := by
  obtain ⟨hlow, hhigh⟩ := octaves_bounds h1 h2 h3 h4
  refine searchDown_eq _ _ _ _ (Int.le_floor.mpr ?_) ?_ fun m _ _ => ?_
  · push_cast
    linarith
  · have hlt : ⌊12 * Real.logb 2 ((49152000 : ℝ) / sum / r) + 1 / 2⌋ < 41 :=
      Int.floor_lt.mpr (by push_cast; linarith)
    omega
  · rw [ratioAtLeast_octaves (by omega) (by omega), Int.le_floor]
    push_cast
    constructor <;> intro h <;> linarith

theorem noteCents_eq {sum r : Nat} (h1 : 30720 ≤ sum) (h3 : 430 ≤ r) :
    let x := 1200 * Real.logb 2 ((49152000 : ℝ) / sum / r)
    let n := ⌊x / 100 + 1 / 2⌋
    noteCents sum r n = ⌊x - 100 * n + 1 / 2⌋ := by
  intro x n
  have hlow : (n : ℝ) ≤ x / 100 + 1 / 2 := Int.floor_le _
  have hhigh : x / 100 + 1 / 2 < n + 1 := Int.lt_floor_add_one _
  refine searchDown_eq _ _ _ _ (Int.le_floor.mpr ?_) ?_ fun m _ _ => ?_
  · push_cast
    linarith
  · have hlt : ⌊x - 100 * n + 1 / 2⌋ < 51 := Int.floor_lt.mpr (by push_cast; linarith)
    omega
  · rw [ratioAtLeast_octaves (by omega) (by omega), Int.le_floor]
    push_cast
    constructor <;> intro h <;> linarith

theorem pitchOf_eq {sum r : Nat} (h1 : 30720 ≤ sum) (h2 : sum ≤ 2457600) (h3 : 430 ≤ r)
    (h4 : r ≤ 450) :
    let x : ℝ := 1200 * Real.logb 2 (49152000 / sum / r)
    let n : ℤ := ⌊x / 100 + 1 / 2⌋
    pitchOf sum r =
      { note := (max 0 (min 95 (n + 57))).toNat, cents := ⌊x - 100 * n + 1 / 2⌋
        freq := (1572864000 + sum) / (2 * sum) } := by
  intro x n
  have hn : noteNumber sum r = n := by
    rw [noteNumber_eq h1 h2 h3 h4, show 12 * Real.logb 2 ((49152000 : ℝ) / sum / r) = x / 100 by
      simp only [x]; ring]
  have hc : noteCents sum r n = ⌊x - 100 * n + 1 / 2⌋ := noteCents_eq h1 h3
  simp only [pitchOf, hn, hc, clampTo, min_comm]

/-! ### The source and the events of the tuner (R178, R194–R196, R199) -/

theorem State.sourceIsB_eq (s : State) : s.sourceIsB = match s.tun.source with
    | .a => false
    | .b => true
    | .follow =>
      match s.stg.liveSlot with
      | none => false
      | some i => (s.stg.slots.get i).image.any fun im => im.record.inputSelect == 1 := by
  have hselect (w : Word24) : (w.toNat == 1) = (w == 1) := by
    rw [Bool.eq_iff_iff, beq_iff_eq, beq_iff_eq, ← BitVec.toNat_inj]
    rfl
  unfold State.sourceIsB
  cases s.tun.source with
  | a => rfl
  | b => rfl
  | follow =>
    cases s.stg.liveSlot with
    | none => rfl
    | some i =>
      dsimp only [Option.bind_some]
      cases (s.stg.slots.get i).image with
      | none => rfl
      | some im => exact hselect _

/-- The TUNE record with its two words (R199). -/
def tuneRecord (body : List Word24) : Record :=
  { kind := .tune, tag := 0, code := .ok, body := body, ends := false }

theorem State.tuneReport_none (h : s.tun.reading = none) :
    s.tuneReport = { s with cch := { s.cch with outbox := s.cch.outbox ++ [tuneRecord [0, 0]] } } := by
  simp only [State.tuneReport, h]
  rfl

theorem State.tuneReport_some {p : Pitch} (h : s.tun.reading = some p) : s.tuneReport =
    { s with cch := { s.cch with outbox := s.cch.outbox ++ [tuneRecord
      [payload (1 <<< 23 + (if s.engaged then 1 <<< 22 else 0) + (if s.sourceIsB then 1 <<< 21 else 0)
        + p.note <<< 8 + (p.cents % 256).toNat), payload p.freq]] } } := by
  simp only [State.tuneReport, h]
  rfl

theorem State.Settled.takesPacing (hs : s.Settled) (ho : s.frame.isOpen = true)
    (hp : s.tun.pacingDue = true) : exec .tunePacingExpiry s = .next s.pacingExpiry.deliver :=
  (hs.act_settle State.closePacing).trans
    (congrArg _ (if_pos (by simp [State.pacingExpiryDue, ho, hp])))

/-- The pacing expiry of a tuner that is OFF, and that of one that is on. -/
theorem State.pacingExpiry_eq (s : State) : s.pacingExpiry =
    let quiet : State := { s with tun := { s.tun with pacingDue := false } }
    if s.engaged = true ∨ s.tun.mode = .background then quiet.tuneReport else quiet := by
  have hoff : s.tunerState = .off ↔ ¬ (s.engaged = true ∨ s.tun.mode = .background) := by
    rw [State.tunerState_off]
    cases s.engaged <;> cases s.tun.mode <;> simp
  unfold State.pacingExpiry
  dsimp only
  by_cases hon : s.engaged = true ∨ s.tun.mode = .background
  · rw [if_pos hon]
    exact if_neg fun h => hoff.mp h hon
  · rw [if_neg hon]
    exact if_pos (hoff.mpr hon)

/-- Settles O50: each event by its own lemma. -/
theorem clickAndTunerEvents : Obligations.ClickAndTunerEvents := by
  refine ⟨fun p x t => ⟨Tun.measure_waits, fun hp ha hx => ⟨fun hopen => ?_, fun a b c d hclosed => ?_⟩⟩,
    fun sum r h1 h2 h3 h4 => pitchOf_eq h1 h2 h3 h4, State.sourceIsB_eq,
    fun s => ⟨fun hheld hb hpos => ?_, fun hheld hsil => ?_, fun hs ho hp => ⟨fun hoff => ?_,
      fun hon hnone => ?_, fun hon p hsome => ?_⟩⟩⟩
  · rw [Tun.measure_crosses hp ha hx, Tun.judge_open (by exact hopen)]
    rfl
  · rw [Tun.measure_crosses hp ha hx, Tun.judge_closed (by exact hclosed)]
    rfl
  · have hdue : s.tck.burstEndDue = true := by
      simp [Tck.burstEndDue, Option.isSome_iff_ne_none.mpr hb, Config.burstLength, hpos]
    exact (act_awake State.serveBurst hheld).trans
      (congrArg (fun k => Host.Outcome.next { s with tck := k }) (if_pos hdue))
  · have hdue : s.tun.silenceDue = true := decide_eq_true hsil
    exact (act_awake State.serveSilence hheld).trans
      (congrArg (fun k => Host.Outcome.next { s with tun := k }) (if_pos hdue))
  · rw [hs.takesPacing ho hp, State.pacingExpiry_eq]
    dsimp only
    rw [if_neg hoff, State.deliver_of_empty (by exact hs.reported)]
  · rw [hs.takesPacing ho hp, State.pacingExpiry_eq]
    dsimp only
    rw [if_pos hon, State.tuneReport_none (by exact hnone), State.deliver_raised (s := s) hs.reported rfl]
    rfl
  · rw [hs.takesPacing ho hp, State.pacingExpiry_eq]
    dsimp only
    rw [if_pos hon, State.tuneReport_some (by exact hsome), State.deliver_raised (s := s) hs.reported rfl]
    rfl

end Sys2Proof.Machine


/-! PROOF. Cue events: how a waiting start begins, and how a cue ends and the next record follows (R54,
R185–R191). -/

namespace Sys2Proof.Machine

variable {s : State}

/-! ### The load of a record without a boundary behind it -/

/-- A sequencer that runs no list and no start with a count-in, that counts in, or that holds no operation, is
left by a restart boundary. -/
theorem Csq.takeBoundary_restart {c : Csq} (h : (c.state = .idle ∧ ∀ w, c.waiting = some w → w.countIn = 0) ∨
      c.state = .countIn ∨ (c.Runs ∧ c.heldOp = none)) (b : Bool) : c.takeBoundary false b = c := by
  rcases h with ⟨h, hw⟩ | h | ⟨h, ho⟩
  · have hwaits : c.countInWaits = false := by
      unfold Csq.countInWaits
      cases hc : c.waiting with
      | none => rfl
      | some w => simp [hw w hc]
    simp [Csq.takeBoundary, h, hwaits]
  · simp [Csq.takeBoundary, h]
  · rcases h with h | h | h <;> simp [Csq.takeBoundary, h, ho]

/-- The sequencer behind the load of a record. -/
theorem State.loadRecord_csq (i : Nat) (s : State) (c : Csq) (hc : ∀ b, c.takeBoundary false b = c) :
    (({ s with csq := c } : State).loadRecord i).csq = { c with
      current := some i, remaining := (s.tbm.cue i).length, state := .running
      lookAhead := if (s.tbm.cue i).cont = true ∧ i + 1 ≤ 1023 then some (i + 1) else none } := by
  rw [State.loadRecord_eq i s c hc]

theorem State.clickBoundary_cch (s : State) : s.clickBoundary.cch = s.cch := by
  rw [State.clickBoundary_eq]

/-- The load of a record without the click of a boundary and without changes that wait behind it. -/
theorem State.loadRecord_alone (i : Nat) (s : State) (c : Csq) (hc : ∀ b, c.takeBoundary false b = c)
    (ht : c.tag = s.csq.tag) : s.Loads i (({ s with csq := c } : State).loadRecord i).deliver := by
  have h := State.loadRecord_loads i s c hc ht
  have hsce : (({ s with csq := c } : State).loadRecord i).sce = s.sce := by simp
  have hpmn : (({ s with csq := c } : State).loadRecord i).pmn = s.pmn := by simp
  generalize ({ s with csq := c } : State).loadRecord i = x at h hsce hpmn
  unfold State.Loads at h ⊢
  have hclick : x.clickBoundary.tck = { x.tck with
      burstPos := x.clickBoundary.tck.burstPos, burst := x.clickBoundary.tck.burst } := by
    rw [State.clickBoundary_eq]
    dsimp only
    split <;> rfl
  have hcch : s.NoChangeWaits → x.clickBoundary.drainExpressions.deliver.cch = x.deliver.cch := fun hn => by
    rw [State.drainExpressions_of_none _ (by simpa [State.NoChangeWaits, hpmn] using hn)]
    simp [State.deliver_eq, State.reporting]
  have hfifo : x.clickBoundary.drainExpressions.deliver.cch.fifo = x.deliver.cch.fifo := by
    rw [State.deliver_fifo, State.deliver_fifo, State.drainExpressions_fifo, State.clickBoundary_cch]
  simp only [State.deliver_csq, State.deliver_tck, State.deliver_dlu, State.deliver_tbm, State.deliver_tun,
    State.deliver_sli, State.deliver_swu, State.deliver_stg, State.drainExpressions_frame,
    State.clickBoundary_frame, hfifo] at h
  rw [hclick] at h
  obtain ⟨h1, h2, h3, h4, h5, h6, h7, h8, h9, -, h11, h12, h13, h14, h15, h16⟩ := h
  simp only [State.deliver_csq, State.deliver_tck, State.deliver_dlu, State.deliver_tbm, State.deliver_tun,
    State.deliver_sli, State.deliver_swu, State.deliver_stg, State.deliver_sce, State.deliver_pmn]
  exact ⟨h1, h2, h3, h4, h5, h6, h7, h8, h9, fun _ => ⟨hsce, hpmn⟩, h11, h12, h13, h14, h15,
    fun hn ho => (hcch hn).symm.trans (h16 hn ho)⟩

/-! ### The click behind a cue event (R180) -/

/-- The click of a boundary judged behind a cue event that has left COUNT_IN and no start waiting. -/
theorem State.clickedBehind {x : State} (hmode : x.tck.clickMode = s.tck.clickMode)
    (hbeat : x.tck.beat = s.tck.beat) (hstate : x.csq.state ≠ .countIn)
    (hwait : x.csq.waiting = s.csq.waiting)
    (hburst : s.tck.phase = 0 → x.tck.burst = s.tck.burst ∧ x.tck.burstPos = s.tck.burstPos) :
    s.ClickedBehindEvent x.clickBoundary.drainExpressions.deliver := by
  have htck : x.clickBoundary.drainExpressions.deliver.tck = x.clickBoundary.tck := by simp
  unfold State.ClickedBehindEvent
  rw [htck, State.clickBoundary_eq]
  refine ⟨fun hon => ?_, fun hoff hnone hphase => ?_⟩
  · have hclicks : x.clicks = true := x.clicks_iff.mpr (.inl (hmode.trans hon))
    simp [hclicks, hbeat]
  · have hclicks : ¬ x.clicks = true := by
      rw [State.clicks_iff, hmode, Csq.countInWaits, hwait, hnone]
      simp [hoff, hstate]
    simp [hclicks, hburst hphase]

theorem State.applyTempo_none {tempo : Nat} (h : tempo = 0) (s : State) : s.applyTempo tempo = s := if_pos h

theorem State.applyTempo_some {tempo : Nat} (h : tempo ≠ 0) (s : State) :
    s.applyTempo tempo = s.takePeriod (periodOf tempo) := if_neg h

/-- The clock behind a tempo of a record, if it holds one (R173). -/
theorem State.applyTempo_tck (tempo : Nat) (s : State) :
    (s.applyTempo tempo).tck.clickMode = s.tck.clickMode ∧ (s.applyTempo tempo).tck.beat = s.tck.beat ∧
      (s.tck.phase = 0 → (s.applyTempo tempo).tck.burst = s.tck.burst ∧
        (s.applyTempo tempo).tck.burstPos = s.tck.burstPos) := by
  unfold State.applyTempo
  split
  · exact ⟨rfl, rfl, fun _ => ⟨rfl, rfl⟩⟩
  · refine ⟨by rw [State.takePeriod_tck], by rw [State.takePeriod_tck], fun hphase => ?_⟩
    obtain ⟨-, -, hburst, hpos⟩ := State.takePeriod_onBeat hphase (periodOf tempo)
    exact ⟨hburst, hpos⟩

/-- The click behind the load of a record by a cue event. -/
theorem State.loadRecord_clicked (i : Nat) (s : State) (c : Csq) (hc : ∀ b, c.takeBoundary false b = c)
    (hw : c.waiting = s.csq.waiting) :
    s.ClickedBehindEvent
      (({ s with csq := c } : State).loadRecord i).clickBoundary.drainExpressions.deliver := by
  have hcsq := State.loadRecord_csq i s c hc
  have htck : (({ s with csq := c } : State).loadRecord i).tck =
      (({ s with csq := c } : State).applyTempo (s.tbm.cue i).tempo).tck := by
    rw [State.loadRecord_eq i s c hc]
  obtain ⟨hmode, hbeat, hburst⟩ := State.applyTempo_tck (s.tbm.cue i).tempo { s with csq := c }
  refine State.clickedBehind ?_ ?_ ?_ ?_ ?_
  · rw [htck, hmode]
  · rw [htck, hbeat]
  · rw [hcsq]; simp
  · rw [hcsq]; exact hw
  · rw [htck]; exact hburst

/-! ### How a waiting start begins (R185) -/

theorem State.Settled.beginsList (hs : s.Settled) (ho : s.frame.isOpen = true)
    (hb : s.frame.atBlock = true) {w : WaitingStart} (hw : s.csq.waiting = some w) (hcount : w.countIn = 0)
    (hfresh : w.fresh = false) : exec .cueListBegin s = .next
      (({ s with csq := { s.csq with waiting := none, list := w.list } } : State).loadRecord
        w.start).deliver := by
  have hdue : s.beginDue = true := by
    simp [State.beginDue, State.atBoundary_of ho hb, Csq.beginDue, hw, hcount, hfresh]
  have hlist : s.beginList =
      ({ s with csq := { s.csq with waiting := none, list := w.list } } : State).loadRecord w.start := by
    simp only [State.beginList, hw]
    rfl
  rw [← hlist]
  exact (hs.act_settle fun s => if s.beginDue then s.beginList.deliver else s).trans
    (congrArg _ (if_pos hdue))

/-- A due cue event taken, with the click and the changes that wait behind it. -/
theorem exec_cueStep {d : CueDue} (f : State → State) (hheld : s.sli.resetHeld = false)
    (hd : s.csq.due = some d) : act (State.cueStep d f) s = .next
      ((f { s with csq := { s.csq with due := none } }).clickBoundary.drainExpressions).deliver :=
  (act_awake _ hheld).trans (congrArg _ (if_pos hd))

/-- The sequencer as a count-in from start `w` begins. -/
def Csq.countsIn (c : Csq) (w : WaitingStart) : Csq :=
  { c with
    waiting := none, list := w.list, state := .countIn, barsLeft := w.countIn, current := some w.start
    lookAhead := none, due := none }

/-- The state as a count-in begins, before its report and its click. -/
def State.countedIn (w : WaitingStart) (s : State) : State :=
  ({ s with csq := s.csq.countsIn w } : State).applyTempo (s.tbm.cue w.start).tempo

theorem State.beginCountIn_eq {w : WaitingStart} (hw : s.csq.waiting = some w) :
    State.beginCountIn { s with csq := { s.csq with due := none } } =
      (s.countedIn w).cueReport .ok 0 0 w.start 0 false w.countIn := by
  simp only [State.beginCountIn, hw]
  rfl

theorem State.countedIn_leaves (w : WaitingStart) (s : State) :
    let tempo := (s.tbm.cue w.start).tempo
    let u := s.countedIn w
    u.csq = s.csq.countsIn w ∧ u.cch = s.cch ∧ u.stg = s.stg ∧ u.tbm = s.tbm ∧ u.pmn = s.pmn ∧
    u.tck.beat = s.tck.beat ∧ (tempo = 0 → u.tck = s.tck) ∧
    (tempo ≠ 0 → u.tck.phase = 0 ∧ u.tck.tapOpen = false ∧ u.tck.tapHistory = [] ∧
      u.tck.period = periodOf tempo) ∧
    (tempo = 0 ∨ s.tck.phase = 0 → u.swu = s.swu) := by
  have hc := Csq.takeBoundary_restart (c := s.csq.countsIn w) (.inr (.inl rfl))
  have hcsq : (s.countedIn w).csq = s.csq.countsIn w := by
    rw [State.countedIn, State.applyTempo_apart _ s _ hc]
  have hbeat := (State.applyTempo_tck (s.tbm.cue w.start).tempo { s with csq := s.csq.countsIn w }).2.1
  refine ⟨hcsq, by simp [State.countedIn], by simp [State.countedIn], by simp [State.countedIn],
    by simp [State.countedIn], hbeat, fun h => ?_, fun h => ?_, fun h => ?_⟩
  · exact (congrArg State.tck (State.applyTempo_none h { s with csq := s.csq.countsIn w }) :)
  · have htck : (s.countedIn w).tck = (({ s with csq := s.csq.countsIn w } : State).takePeriod
        (periodOf (s.tbm.cue w.start).tempo)).tck := congrArg State.tck (State.applyTempo_some h _)
    rw [htck, State.takePeriod_tck]
    exact ⟨rfl, rfl, rfl, rfl⟩
  · by_cases h0 : (s.tbm.cue w.start).tempo = 0
    · exact (congrArg State.swu (State.applyTempo_none h0 { s with csq := s.csq.countsIn w }) :)
    · exact (congrArg State.swu (State.applyTempo_some h0 _)).trans
        (State.takePeriod_onBeat (s := { s with csq := s.csq.countsIn w }) (h.resolve_left h0) _).1

/-- A boundary behind the begin of a count-in clicks (R180). -/
theorem State.clickBoundary_countIn (h : s.csq.state = .countIn) : s.clickBoundary = { s with tck :=
    { s.tck with burstPos := 0, burst := some (if s.tck.beat = 1 then .accent else .normal) } } := by
  rw [State.clickBoundary_eq, if_pos (s.clicks_iff.mpr (.inr (.inl h)))]

/-- Settles O51: a start without count-in, the begin of a count-in and its end. -/
theorem waitingStartBegins : Obligations.WaitingStartBegins := by
  refine fun s => ⟨fun hs ho hb w hw hcount hfresh hidle => ?_, fun hheld hd w hw hidle hout => ?_,
    fun hheld hd i hi hstate => ?_⟩
  · have hc := Csq.takeBoundary_restart (c := { s.csq with waiting := none, list := w.list })
      (.inl ⟨hidle, nofun⟩)
    refine ⟨_, hs.beginsList ho hb hw hcount hfresh, State.loadRecord_alone _ _ _ hc rfl, ?_, ?_, ?_, ?_, ?_⟩
    · rw [State.deliver_csq, State.loadRecord_csq _ _ _ hc]
    · rw [State.deliver_csq, State.loadRecord_csq _ _ _ hc]
    · rw [State.deliver_csq, State.loadRecord_csq _ _ _ hc]
    · simp
    · simp
  · obtain ⟨hcsq, hcch, hstg, htbm, hpmn, hbeat, hzero, htempo, hswu⟩ := State.countedIn_leaves w s
    have hexec := exec_cueStep State.beginCountIn hheld hd
    have hreport : (s.countedIn w).cueReport .ok 0 0 w.start 0 false w.countIn = { s.countedIn w with
        cch := { s.cch with outbox := s.cch.outbox ++ [cueRecord s.csq.tag .ok 0 0 w.list w.start
          (s.tbm.cue w.start).scene 0 false w.countIn] } } := by
      rw [← hcch, ← htbm, show s.csq.tag = (s.countedIn w).csq.tag by rw [hcsq]; rfl,
        show w.list = (s.countedIn w).csq.list by rw [hcsq]; rfl]
      rfl
    rw [State.beginCountIn_eq hw, hreport, State.clickBoundary_countIn (by exact congrArg Csq.state hcsq)]
      at hexec
    generalize s.countedIn w = u at hexec hcsq hcch hstg htbm hpmn hbeat hzero htempo hswu
    refine ⟨_, hexec, by simp [hcsq, Csq.countsIn], fun hn => ?_, by simp, by simp [hbeat], fun h => ?_,
      fun h => ?_,
      by simpa using hswu, by simpa using hstg, by simpa using htbm⟩
    · rw [State.drainExpressions_of_none _
        (by exact fun b v es => (congrArg Pmn.events hpmn).trans_ne (hn b v es))]
      exact State.deliver_cch hout rfl
    · simp [hzero h]
    · simpa [periodOf] using htempo h
  · have hc := Csq.takeBoundary_restart (c := { s.csq with due := none }) (.inr (.inl hstate))
    have hend : State.endCountIn { s with csq := { s.csq with due := none } } =
        ({ s with csq := { s.csq with due := none } } : State).loadRecord i := by
      simp only [State.endCountIn, hi]
    have hexec := exec_cueStep State.endCountIn hheld hd
    rw [hend] at hexec
    refine ⟨_, hexec, State.loadRecord_loads _ _ _ hc rfl, ?_, ?_, State.loadRecord_clicked _ _ _ hc rfl⟩
    · simp [State.loadRecord_csq _ _ _ hc]
    · simp [State.loadRecord_csq _ _ _ hc]

/-! ### How a cue ends (R54, R188–R190) -/

/-- A word written leaves every other word as it is, whatever the form of the store. -/
theorem Mem.read_write_of_ne {a b : Nat} (h : a ≠ b) (v : Word24) (m : Mem) :
    (m.write a v).read b = m.read b := by
  induction m with
  | nil =>
    unfold Mem.write
    split
    · rfl
    · exact if_neg h
  | cons e m ih =>
    obtain ⟨k, w⟩ := e
    unfold Mem.write
    by_cases hlt : a < k
    · rw [if_pos hlt]
      split
      · rfl
      · exact if_neg h
    · rw [if_neg hlt]
      by_cases hk : a = k
      · have hkb : k ≠ b := fun e => h (hk.trans e)
        rw [if_pos hk]
        split
        · exact (if_neg hkb).symm
        · exact (if_neg h).trans (if_neg hkb).symm
      · rw [if_neg hk]
        by_cases hkb : k = b
        · exact (if_pos hkb).trans (if_pos hkb).symm
        · exact (if_neg hkb).trans (ih.trans (if_neg hkb).symm)

/-- A residue written leaves the CONTINUE flag of the record. -/
theorem Tbm.writeResidue_cont (t : Tbm) (i n : Nat) : ((t.writeResidue i n).cue i).cont = (t.cue i).cont := by
  have hword : (t.writeResidue i n).word .cue i 0 = t.word .cue i 0 :=
    Mem.read_write_of_ne (by simp [entryAddr]) _ _
  simp only [Tbm.cue, hword]

/-- The tables behind the residue of record `i` (R54). -/
def State.residueLeft (i : Nat) (s : State) : Tbm :=
  if (s.tbm.cue i).residue = true then s.tbm.writeResidue i s.csq.remaining else s.tbm

theorem State.leaveResidue_left (i : Nat) (s : State) : s.leaveResidue i = { s with tbm := s.residueLeft i } := by
  unfold State.leaveResidue State.residueLeft
  split <;> rfl

theorem State.residueLeft_cont (i : Nat) (s : State) : ((s.residueLeft i).cue i).cont = (s.tbm.cue i).cont := by
  unfold State.residueLeft
  split
  · exact Tbm.writeResidue_cont _ _ _
  · rfl

/-- The sequencer as a cue event clears its mark and the held operation. -/
def Csq.cleared (c : Csq) : Csq := { c with due := none, heldOp := none }

/-- What is left where record `j` follows a cue (R186, R188). -/
def State.CueFollowed (s : State) (j : Nat) (t : State) : Prop :=
  ({ s with tbm := t.tbm } : State).Loads j t ∧ s.ClickedBehindEvent t ∧
  t.csq.heldOp = none ∧ t.csq.due = none ∧ t.csq.list = s.csq.list ∧ t.csq.tag = s.csq.tag

/-- What is left where a list ends behind record `j` (R189). -/
def State.CueListEnded (s : State) (j reason : Nat) (t : State) : Prop :=
  t.csq = { s.csq with
    state := .idle, current := none, lookAhead := none, heldOp := none, due := none } ∧
  s.ClickedBehindEvent t ∧ t.swu = s.swu ∧ t.dlu = s.dlu ∧ t.tun = s.tun ∧ t.sli = s.sli ∧
  t.stg = { s.stg with slots := vmap (fun x => { x with cuePin := false }) s.stg.slots } ∧
  (s.NoChangeWaits → t.sce = s.sce ∧ t.pmn = s.pmn ∧ t.cch = (s.reporting
    [cueRecord s.csq.tag .ok 2 reason s.csq.list j (t.tbm.cue j).scene s.csq.remaining false 0]).cch)

/-- A state behind a cue event, with the click and the changes that wait behind it. -/
def State.eventTaken (x : State) : State := x.clickBoundary.drainExpressions.deliver

@[simp] theorem State.eventTaken_tbm (x : State) : x.eventTaken.tbm = x.tbm := by
  simp [State.eventTaken]

theorem State.loadRecord_follows {tb : Tbm} (hruns : s.csq.Runs) (j : Nat) :
    s.CueFollowed j (({ s with tbm := tb, csq := s.csq.cleared } : State).loadRecord j).eventTaken := by
  have hc := Csq.takeBoundary_restart (c := s.csq.cleared) (.inr (.inr ⟨hruns, rfl⟩))
  have hcsq := State.loadRecord_csq j { s with tbm := tb } s.csq.cleared hc
  have htbm : (({ s with tbm := tb, csq := s.csq.cleared } : State).loadRecord j).eventTaken.tbm = tb := by
    simp
  have hkept : (({ s with tbm := tb, csq := s.csq.cleared } : State).loadRecord j).eventTaken.csq =
      (({ s with tbm := tb, csq := s.csq.cleared } : State).loadRecord j).csq := by
    simp [State.eventTaken]
  refine ⟨?_, State.loadRecord_clicked j { s with tbm := tb } s.csq.cleared hc rfl, ?_, ?_, ?_, ?_⟩
  · rw [htbm]
    exact State.loadRecord_loads j { s with tbm := tb } s.csq.cleared hc rfl
  all_goals
    rw [hkept, hcsq]
    rfl

theorem State.listEnd_follows (hout : s.cch.outbox = []) (tb : Tbm) (r : EndReason) (j : Nat) :
    s.CueListEnded j r.value
      (({ s with tbm := tb, csq := s.csq.cleared } : State).listEnd r j s.csq.remaining).eventTaken :=
  State.listEnd_ends s hout tb s.csq.cleared (.inl rfl) r j

/-- Behind a cue that ends, the next record follows or the list ends (R188). -/
theorem State.endCue_follows (hout : s.cch.outbox = []) {i : Nat} (hi : s.csq.current = some i)
    (hruns : s.csq.Runs) :
    let t := (State.endCue { s with csq := s.csq.cleared }).eventTaken
    ((s.tbm.cue i).cont = true → i + 1 ≤ 1023 → s.CueFollowed (i + 1) t) ∧
    ((s.tbm.cue i).cont = true → 1023 < i + 1 → s.CueListEnded i 2 t) ∧
    ((s.tbm.cue i).cont = false → s.CueListEnded i 1 t) ∧ t.tbm = s.residueLeft i := by
  have hend : State.endCue { s with csq := s.csq.cleared } =
      State.followOn i { s with tbm := s.residueLeft i, csq := s.csq.cleared } := by
    have hcur : s.csq.cleared.current = some i := hi
    simp only [State.endCue, hcur, State.leaveResidue_left]
    rfl
  have hcont := s.residueLeft_cont i
  dsimp only
  rw [hend]
  refine ⟨fun hc hle => ?_, fun hc hgt => ?_, fun hc => ?_, ?_⟩
  · rw [State.followOn, if_pos (hcont.trans hc), if_pos hle]
    exact State.loadRecord_follows hruns _
  · rw [State.followOn, if_pos (hcont.trans hc), if_neg (not_le.mpr hgt)]
    exact State.listEnd_follows hout _ _ _
  · rw [State.followOn, if_neg (by simp [hcont, hc])]
    exact State.listEnd_follows hout _ _ _
  · rw [State.eventTaken_tbm]
    unfold State.followOn
    (repeat' split) <;> simp

/-- Behind a held SKIP the record after the next one follows, or the list ends (R190). -/
theorem State.skipCue_follows (hout : s.cch.outbox = []) {i : Nat} (hi : s.csq.current = some i)
    (hruns : s.csq.Runs) :
    let t := (State.skipCue { s with csq := s.csq.cleared }).eventTaken
    let q := s.tbm.cue i
    let next := s.tbm.cue (i + 1)
    t.tbm = s.tbm ∧
    (q.cont = false → s.CueListEnded i 1 t) ∧ (q.cont = true → 1023 ≤ i → s.CueListEnded i 2 t) ∧
    (q.cont = true → i < 1023 → next.cont = false → s.CueListEnded (i + 1) 1 t) ∧
    (q.cont = true → i = 1022 → next.cont = true → s.CueListEnded (i + 1) 2 t) ∧
    (q.cont = true → i < 1022 → next.cont = true → s.CueFollowed (i + 2) t) := by
  have hcur : s.csq.cleared.current = some i := hi
  have hends (r : EndReason) (j : Nat) := State.listEnd_follows hout s.tbm r j
  have hload := State.loadRecord_follows (tb := s.tbm) hruns (i + 2)
  dsimp only
  simp only [State.skipCue, hcur]
  refine ⟨?_, fun hc => ?_, fun hc hi => ?_, fun hc hi hn => ?_, fun hc hi hn => ?_, fun hc hi hn => ?_⟩
  · rw [State.eventTaken_tbm]
    (repeat' split) <;> simp
  · rw [if_pos (by simp [hc])]
    exact hends .noContinue i
  · rw [if_neg (by simp [hc]), if_pos hi]
    exact hends .memoryEnd i
  · rw [if_neg (by simp [hc]), if_neg (by omega), if_pos (by simp [hn])]
    exact hends .noContinue (i + 1)
  · rw [if_neg (by simp [hc]), if_neg (by omega), if_neg (by simp [hn]), if_pos (by omega)]
    exact hends .memoryEnd (i + 1)
  · rw [if_neg (by simp [hc]), if_neg (by omega), if_neg (by simp [hn]), if_neg (by omega)]
    exact hload

/-! ### The vamp (R188) -/

/-- A map reads the tables and the engine alone, and changes the engine alone (R88). -/
theorem State.applyExpMap_sce {u : State} (htbm : u.tbm = s.tbm) (hsce : u.sce = s.sce) (p v i : Nat) :
    (u.applyExpMap p v i).sce = (s.applyExpMap p v i).sce := by
  unfold State.applyExpMap
  dsimp only
  rw [htbm, hsce]
  split
  · split
    · exact hsce
    · split
      · simp only [State.mapSce_sce, hsce]
      · exact hsce
  · exact hsce

theorem State.applyExpMaps_sce {u : State} (htbm : u.tbm = s.tbm) (hsce : u.sce = s.sce) (p v : Nat) :
    (u.applyExpMaps p v).sce = (s.applyExpMaps p v).sce := by
  have hfold (is : List Nat) : ∀ u s : State, u.tbm = s.tbm → u.sce = s.sce →
      (is.foldl (fun s i => s.applyExpMap p v i) u).sce =
        (is.foldl (fun s i => s.applyExpMap p v i) s).sce := by
    induction is with
    | nil => exact fun _ _ _ h => h
    | cons i is ih => exact fun u s ht hs => ih _ _ (by simp [ht]) (State.applyExpMap_sce ht hs p v i)
  exact hfold _ u s htbm hsce

theorem State.changed_pmn (second : Bool) (v : Nat) (s : State) : (s.changed second v).pmn = { s.pmn with
    last1 := if second then s.pmn.last1 else v
    last2 := if second then v else s.pmn.last2 } := by
  unfold State.changed
  cases second <;> simp

theorem State.changed_sce (second : Bool) (v : Nat) (s : State) :
    (s.changed second v).sce = (s.applyExpMaps (if second then 2 else 1) v).sce :=
  State.applyExpMaps_sce (s := s) (u := { s with
    pmn := if second then { s.pmn with last2 := v } else { s.pmn with last1 := v }
    cch := { s.cch with outbox := s.cch.outbox ++ if s.pmn.reporting then
      [expressionRecord (if second then 2 else 1) v] else [] } }) rfl rfl _ _

/-- The sequencer behind a vamp that takes its length again. -/
def State.vamped (i : Nat) (s : State) : State :=
  { s with csq := { s.csq with remaining := (s.tbm.cue i).length, due := none } }

/-- A change that stands alone behind a vamp is taken with it (R148). -/
theorem State.vamped_change {b : Bool} {v : Nat} (i : Nat) (h : s.pmn.events = [.expression b v]) :
    (s.vamped i).clickBoundary.drainExpressions =
      State.changed { (s.vamped i).clickBoundary with pmn := { s.pmn with events := [] } } b v := by
  have hpmn : (s.vamped i).clickBoundary.pmn = s.pmn := by simp [State.vamped]
  have hdue : (s.vamped i).clickBoundary.csq.due = none := by simp [State.vamped]
  rw [State.drainExpressions_eq [(b, v)] [] nofun _ (by rw [hpmn, h]; rfl), State.thenChanges, if_pos hdue,
    hpmn]
  rfl

/-- Settles O52, by what each cue event does. -/
theorem cueEndsAndFollows : Obligations.CueEndsAndFollows := by
  intro i s hheld hout hi hidle hcount
  have hruns : s.csq.Runs := by
    cases h : s.csq.state <;> simp_all [Csq.Runs]
  refine ⟨fun hd hop => ?_, fun hd => ?_, fun hd => ?_, fun hd => ?_⟩
  · have hcleared : { s.csq with due := none } = s.csq.cleared := by rw [Csq.cleared, ← hop]
    have hexec := exec_cueStep State.endCue hheld hd
    rw [hcleared] at hexec
    exact ⟨_, hexec, State.endCue_follows hout hi hruns⟩
  · exact ⟨_, exec_cueStep (fun s => s.clearHeldOp.endCue) hheld hd, State.endCue_follows hout hi hruns⟩
  · exact ⟨_, exec_cueStep (fun s => s.clearHeldOp.skipCue) hheld hd, State.skipCue_follows hout hi hruns⟩
  · have hvamp : State.reloadVamp { s with csq := { s.csq with due := none } } = s.vamped i := by
      unfold State.reloadVamp
      dsimp only
      split
      next hnone => exact absurd (hnone.symm.trans hi) nofun
      next j hj =>
        obtain rfl : j = i := Option.some.inj (hj.symm.trans hi)
        rfl
    have hexec := exec_cueStep State.reloadVamp hheld hd
    rw [hvamp] at hexec
    refine ⟨_, hexec, by simp [State.vamped], by simp [State.vamped], by simp [State.vamped],
      by simp [State.vamped], State.clickedBehind rfl rfl hcount rfl fun _ => ⟨rfl, rfl⟩, fun hn => ?_,
      fun b v he => ?_⟩
    · rw [State.drainExpressions_of_none _ (by simpa [State.vamped, State.NoChangeWaits] using hn),
        State.deliver_of_empty (by simpa [State.vamped] using hout)]
      simp [State.vamped]
    · have hcch : (s.vamped i).clickBoundary.cch = s.cch := State.clickBoundary_cch _
      rw [State.vamped_change i he, State.deliver_pmn, State.deliver_sce, State.changed_pmn, State.changed_sce]
      refine ⟨rfl, State.applyExpMaps_sce ?_ ?_ _ _, State.deliver_cch hout ?_⟩
      · simp [State.vamped]
      · simp [State.vamped]
      · rw [State.changed_cch]
        simp only [hcch]

end Sys2Proof.Machine


/-! PROOF. A locked frame (R5, R6, R9, R10): what the parts of it leave, block by block, up to the pedal
word; the debounce and the changes of the pedal word; and passthrough. Settles the statements about the
frame. -/

namespace Sys2Proof.Machine

variable {s : State}

/-! ### The parts of a frame -/

/-- The samples a frame brings (R9, R10). -/
def Received.frameIn (r : Received) (s : State) : FrameIn where
  a := r.sample s.sli.map.guitarA
  b := r.sample s.sli.map.guitarB
  ret := r.sample s.sli.map.loopReturn
  tbm := s.tbm

/-- The state once everything in it is older than the frame, and a crossfade has moved on (R141). -/
def State.aged (s : State) : State :=
  s.age.mapSwu fun u => { u with crossfade := u.crossfade.map Crossfade.frame }

/-- The state once the chains and the lines have run. -/
def State.sounded (r : Received) (s : State) : State := s.aged.audio (r.frameIn s)

/-- The state once everything of the frame but its pedal word is done. -/
def State.heard (o : FrameOrder) (r : Received) (s : State) : State :=
  let a := r.sample s.sli.map.guitarA
  let b := r.sample s.sli.map.guitarB
  let control := r.control s.sli.map.control
  let u := (s.sounded r).clockFrame.openEnd o control a b
  let u := if o.measureLast then u else u.measureSource a b
  let u := if o.controlLast then u else u.takeControl control
  u.mapSli fun l => { l with lastPedal := r.pedal s.sli.lastPedal s.sli.map.pedal, received := none }

@[simp] theorem State.sounded_frame (r : Received) : (s.sounded r).cch = s.cch ∧
    (s.sounded r).tbm = s.tbm ∧ (s.sounded r).stg = s.aged.stg ∧ (s.sounded r).swu = s.aged.swu ∧
    (s.sounded r).pmn = s.aged.pmn ∧ (s.sounded r).tck = s.tck ∧ (s.sounded r).csq = s.aged.csq ∧
    (s.sounded r).tun = s.tun ∧ (s.sounded r).frame = s.frame :=
  ⟨rfl, rfl, rfl, rfl, rfl, rfl, rfl, rfl, rfl⟩

theorem State.deliverFrame_eq (o : FrameOrder) (r : Received) (s : State) : s.deliverFrame o r =
    (((s.heard o r).mapPmn
      (Pmn.word (r.pedal s.sli.lastPedal s.sli.map.pedal))).drainExpressions).deliver := rfl

theorem exec_lockedFrame (o : FrameOrder) {r : Received} (hheld : s.sli.resetHeld = false)
    (hlock : s.sli.lock = .locked) (hr : s.sli.received = some r) :
    exec (.lockedFrame o) s = .next (s.deliverFrame o r) := by
  refine (act_awake (fun s => s.deliverDue o) hheld).trans ?_
  simp only [State.deliverDue, hlock, hr]

/-! ### The aged state (R85, R127, R139, R141, R142, R152, R185) -/

@[simp] theorem State.aged_frame : s.aged.sli = s.sli ∧ s.aged.cch = s.cch ∧ s.aged.tbm = s.tbm ∧
    s.aged.dlu = s.dlu ∧ s.aged.tck = s.tck ∧ s.aged.tun = s.tun ∧ s.aged.frame = s.frame :=
  ⟨rfl, rfl, rfl, rfl, rfl, rfl, rfl⟩

theorem State.aged_swu : s.aged.swu =
    { pending := s.swu.pending.map fun p => { p with fresh := false }
      crossfade := s.swu.crossfade.map fun x =>
        { x with elapsed := min x.length (x.elapsed + 1), reversalFresh := false }
      stack := s.swu.stack } :=
  congrArg (fun c => ({ s.aged.swu with crossfade := c } : Swu)) (Option.map_map ..)

theorem State.aged_weight : s.aged.weight =
    s.swu.crossfade.map fun x => min x.length (x.elapsed + 1) * 32768 / x.length := by
  rw [State.weight, State.aged_swu, Option.map_map]
  rfl

theorem State.aged_tunerState (s : State) : s.aged.tunerState = s.tunerState := rfl

theorem State.aged_sourceIsB (s : State) : s.aged.sourceIsB = s.sourceIsB := by
  have hfind : s.aged.stg.liveSlot = s.stg.liveSlot := by
    simp [State.aged, State.age, Stg.liveSlot, Stg.find]
  rw [State.sourceIsB_eq, State.sourceIsB_eq, hfind]
  simp [State.aged, State.age]

/-! ### What the frame leaves before its pedal word -/

/-- A step of the gain of the outputs (R83). -/
theorem moveGain_mute (g : Nat) (engaged : Bool) :
    moveGain g (!engaged) = if engaged then g - 128 else min 32768 (g + 128) := by
  cases engaged <;> rfl

theorem inputOf_eq (sel : Word24) (f : FrameIn) :
    inputOf sel f = if sel = 1 then f.b else if sel = 2 then (f.a + f.b) / 2 else f.a := by
  unfold inputOf
  split
  next h => rw [if_pos (BitVec.eq_of_toNat_eq h)]
  next h => rw [if_neg (by rintro rfl; exact absurd h (by decide)), if_pos (BitVec.eq_of_toNat_eq h)]
  next h1 h2 => rw [if_neg (by rintro rfl; exact h1 rfl), if_neg (by rintro rfl; exact h2 rfl)]

theorem Received.sample_some (r : Received) (k : LinkSlot) : r.sample (some k) =
    if k.val < r.full then ((r.words.get k).extractLsb' 8 24).toInt else 0 := rfl

theorem clickSample_eq (kind : BurstKind) (k level : Nat) :
    let half := match kind with | .accent => 16 | .normal => 24
    let magnitude : Int := (4194304 * (480 - k : Int) + 240) / 480
    clickSample kind k level =
      ((if k % (2 * half) < half then magnitude else -magnitude) * level + 16384) / 32768 := by
  intro half magnitude
  have hshare (x : Int) : share x level = (x * level + 16384) / 32768 := by
    unfold share rounded
    omega
  cases kind <;> exact (hshare _).trans (by simp only [decide_eq_true_eq]; rfl)

theorem Tck.sample_eq (t : Tck) :
    let magnitude : Int := (4194304 * (480 - t.burstPos : Int) + 240) / 480
    let wave : Nat → Nat → Int := fun half level =>
      if 480 ≤ t.burstPos then 0
      else ((if t.burstPos % (2 * half) < half then magnitude else -magnitude) * level + 16384) / 32768
    t.sample = match t.burst with
      | none => 0
      | some .accent => wave 16 t.accentLevel
      | some .normal => wave 24 t.normalLevel := by
  intro magnitude wave
  unfold Tck.sample
  split
  next h =>
    rw [h, clickSample_eq]
    exact (if_congr not_le.symm rfl rfl).trans (ite_not ..)
  next h =>
    rw [h, clickSample_eq]
    exact (if_congr not_le.symm rfl rfl).trans (ite_not ..)
  next h => rw [h]

theorem State.heard_blocks (o : FrameOrder) (r : Received) : (s.heard o r).tbm = s.tbm ∧
    (s.heard o r).stg = s.aged.stg ∧ (s.heard o r).swu = s.aged.swu ∧
    (s.heard o r).csq = s.aged.csq ∧ (s.heard o r).pmn = s.aged.pmn ∧
    (s.heard o r).sce = (s.sounded r).sce ∧ (s.heard o r).dlu = (s.sounded r).dlu := by
  unfold State.heard
  dsimp only
  refine ⟨?_, ?_, ?_, ?_, ?_, ?_, ?_⟩ <;> (split <;> split) <;> simp [State.sounded]

theorem State.heard_cch (o : FrameOrder) (r : Received) : (s.heard o r).cch =
    if o.controlLast then s.cch else s.cch.arrival (controlWord (r.control s.sli.map.control)) := by
  unfold State.heard
  dsimp only
  cases o.controlLast <;> cases o.measureLast <;> simp [State.sounded, State.takeControl]

theorem State.clockFrame_sli : s.clockFrame.sli =
    { s.sli with outbound := { s.sli.outbound with click := s.tck.sample } } := by
  unfold State.clockFrame
  dsimp only
  split <;> rfl

theorem State.clockFrame_tck : s.clockFrame.tck = { s.tck with
    phase := if s.tck.period ≤ s.tck.phase + 1 then s.tck.phase else s.tck.phase + 1
    burstPos := if s.tck.burst = none then s.tck.burstPos else min 480 (s.tck.burstPos + 1)
    tapCount := if s.tck.tapOpen = true then min 144001 (s.tck.tapCount + 1) else s.tck.tapCount } := by
  have hburst : (if s.tck.burst.isSome then min Config.burstLength (s.tck.burstPos + 1) else s.tck.burstPos) =
      if s.tck.burst = none then s.tck.burstPos else min 480 (s.tck.burstPos + 1) := by
    cases s.tck.burst <;> rfl
  rw [← hburst]
  unfold State.clockFrame
  dsimp only
  split
  next h => rw [if_pos (by exact h)]; rfl
  next h => rw [if_neg (by exact h)]; rfl

theorem State.clockFrame_riseDue : s.clockFrame.frame.riseDue = true ↔
    s.frame.riseDue = true ∨ s.tck.period ≤ s.tck.phase + 1 := by
  unfold State.clockFrame
  dsimp only
  split
  next h => exact iff_of_true rfl (.inr h)
  next h => exact (or_iff_left (by exact h)).symm

theorem State.heard_sli (o : FrameOrder) (r : Received) : (s.heard o r).sli =
    { (s.sounded r).sli with
      outbound := { (s.sounded r).sli.outbound with click := s.tck.sample }
      lastPedal := r.pedal s.sli.lastPedal s.sli.map.pedal, received := none } := by
  unfold State.heard
  dsimp only
  cases o.controlLast <;> cases o.measureLast <;> simp [State.clockFrame_sli, State.sounded]

theorem State.heard_tck (o : FrameOrder) (r : Received) :
    (s.heard o r).tck = (s.sounded r).clockFrame.tck := by
  unfold State.heard
  dsimp only
  cases o.controlLast <;> cases o.measureLast <;> simp

theorem State.heard_frame (o : FrameOrder) (r : Received) : (s.heard o r).frame =
    { isOpen := true, taken := false, blockDue := boundaryAfter s.sli.counter, atBlock := false
      tested := false, riseDue := (s.sounded r).clockFrame.frame.riseDue
      lateControl := if o.controlLast then some (r.control s.sli.map.control) else none
      lateSamples := if o.measureLast then
        some (r.sample s.sli.map.guitarA, r.sample s.sli.map.guitarB) else none } := by
  have hcounter : (s.sounded r).clockFrame.sli.counter = s.sli.counter := by
    rw [State.clockFrame_sli]
    rfl
  unfold State.heard
  dsimp only
  cases hc : o.controlLast <;> cases hm : o.measureLast <;> simp [State.openEnd, hcounter, hc, hm]

theorem State.heard_tun (o : FrameOrder) (r : Received) : (s.heard o r).tun =
    if o.measureLast then s.tun
    else if s.tunerState = .off then s.tun
    else s.tun.measure (if s.sourceIsB then r.sample s.sli.map.guitarB else r.sample s.sli.map.guitarA) := by
  have hopen (c : Word32) (a b : Int) :
      ((s.sounded r).clockFrame.openEnd o c a b).tunerState = s.tunerState ∧
      ((s.sounded r).clockFrame.openEnd o c a b).sourceIsB = s.sourceIsB := by
    refine ⟨Eq.trans ?_ s.aged_tunerState, Eq.trans ?_ s.aged_sourceIsB⟩
    · simp [State.tunerState, State.engaged]
    · simp [State.sourceIsB]
  obtain ⟨hstate, hsource⟩ := hopen (r.control s.sli.map.control) (r.sample s.sli.map.guitarA)
    (r.sample s.sli.map.guitarB)
  unfold State.heard
  dsimp only
  cases o.measureLast <;> cases o.controlLast <;>
    simp [State.measureSource, State.measure, hstate, hsource, apply_ite State.tun]

/-! ### The pedal word (R148, R149, R154) -/

theorem foldl_upd_get {α : Type} {n : Nat} (f : Fin n → α) (k : Fin n) (ks : List (Fin n)) (v : Vector α n) :
    (ks.foldl (fun v i => upd v i (f i)) v).get k = if k ∈ ks then f k else v.get k := by
  induction ks generalizing v with
  | nil => simp
  | cons i ks ih =>
    rw [List.foldl_cons, ih, upd_get]
    by_cases hk : k ∈ ks <;> by_cases hi : k = i <;> simp [hk, hi, eq_comm]

theorem mem_twelve : ∀ k : SwitchNo, k ∈ twelve := by decide

theorem Pmn.word_switch (w : Option Word32) (p : Pmn) (k : SwitchNo) : (p.word w).switches.get k =
    (p.switches.get k).frame (p.debounce * 16) (pedalDown w k) := by
  have hget := foldl_upd_get (fun f => (p.switches.get f).frame (p.debounce * 16) (pedalDown w f)) k twelve
    p.switches
  rw [if_pos (mem_twelve k)] at hget
  exact hget

/-- The debounce of a footswitch that the frame makes older (R149, R152). -/
theorem Footswitch.frame_fresh (D : Nat) (down : Bool) (x : Footswitch) :
    ({ x with fresh := false } : Footswitch).frame (D * 16) down =
      if down = x.reference then { x with debounce := 0, fresh := false }
      else if x.debounce + 1 < 16 * D then { x with debounce := x.debounce + 1, fresh := false }
      else { x with reference := down, debounce := 0, fresh := false } := by
  rw [mul_comm 16]
  rfl

theorem filterMap_ite {α β : Type} (p : α → Bool) (f : α → β) (xs : List α) :
    (xs.filterMap fun x => if p x then some (f x) else none) = (xs.filter p).map f := by
  induction xs with
  | nil => rfl
  | cons x xs ih => cases h : p x <;> simp [h, ih]

/-- A word that confirms no footswitch brings its changes alone. -/
theorem Pmn.expressionEvents_eq (p : Pmn) (w : Option Word32) :
    let change : Nat → Nat → Bool := fun last v => 2 ≤ ((v : Int) - last).natAbs
    let first := pedalReading w |>.any fun v => change p.last1 v.1
    let second := pedalReading w |>.any fun v => change p.last2 v.2
    let readings := (pedalReading w).getD (0, 0)
    p.expressionEvents w = ((if first then [(false, readings.1)] else [])
      ++ (if second then [(true, readings.2)] else [])).map fun c => PedalEvent.expression c.1 c.2 := by
  intro change first second readings
  have haccepted (last v : Nat) : accepted last v = change last v := by
    rw [Bool.eq_iff_iff]
    simp only [accepted, change, Bool.or_eq_true, decide_eq_true_eq]
    omega
  unfold Pmn.expressionEvents
  cases h : pedalReading w with
  | none => simp [first, second, h]
  | some v =>
    obtain ⟨v1, v2⟩ := v
    simp only [haccepted, first, second, readings, h, Option.any_some, Option.getD_some]
    cases change p.last1 v1 <;> cases change p.last2 v2 <;> rfl

/-- A run of changes leaves the debouncer and the assembler as they are. -/
theorem takeExpressions_keeps_input (es : List PedalEvent) (s : State) :
    (takeExpressions es s).pmn.switches = s.pmn.switches ∧
    (takeExpressions es s).cch.asm = s.cch.asm := by
  induction es generalizing s with
  | nil => exact ⟨rfl, rfl⟩
  | cons e es ih =>
    cases e with
    | press f => exact ⟨rfl, rfl⟩
    | release f => exact ⟨rfl, rfl⟩
    | expression b v =>
      simp only [takeExpressions, State.expressionChange_eq]
      obtain ⟨hsw, hasm⟩ := ih (State.changed (s.mapPmn fun p => { p with events := es }) b v)
      rw [hsw, hasm, State.changed_pmn, State.changed_cch]
      exact ⟨rfl, rfl⟩

theorem State.drainExpressions_keeps_input (s : State) :
    s.drainExpressions.pmn.switches = s.pmn.switches ∧
    s.drainExpressions.cch.asm = s.cch.asm := by
  unfold State.drainExpressions
  split
  · exact ⟨rfl, rfl⟩
  · exact takeExpressions_keeps_input _ s

/-! ### The CONTROL word raises no report of its own behind the frame (R23–R28) -/

@[simp] theorem Cch.faultOpen_outbox (code : Code) (seq : Nat) (tr : Trigger) (c : Cch) :
    (c.faultOpen code seq tr).outbox = c.outbox := by
  simp [Cch.faultOpen]

@[simp] theorem Cch.completeOpen_outbox (c : Cch) : c.completeOpen.outbox = c.outbox := by
  unfold Cch.completeOpen
  dsimp only
  split
  · exact Cch.faultOpen_outbox ..
  · split <;> rfl

@[simp] theorem Cch.takeHead_outbox (len code : Nat) (tag : Byte) (a0 : Nat) (c : Cch) :
    (c.takeHead len code tag a0).outbox = c.outbox := by
  unfold Cch.takeHead
  dsimp only
  split <;> split <;> simp [Cch.dropWord, Cch.followFill]

@[simp] theorem Cch.writeBody_outbox (data : Word24) (c : Cch) : (c.writeBody data).outbox = c.outbox := by
  unfold Cch.writeBody
  split
  · rfl
  · split
    · rfl
    · split <;> rfl

@[simp] theorem Cch.takeBody_outbox (seq : Nat) (data : Word24) (c : Cch) :
    (c.takeBody seq data).outbox = c.outbox := by
  unfold Cch.takeBody
  dsimp only
  split
  · split <;> simp
  · simp [Cch.discardOpen, Cch.followFill, Cch.countFragment]

@[simp] theorem Cch.arrival_outbox (w : ControlWord) (c : Cch) : (c.arrival w).outbox = c.outbox := by
  unfold Cch.arrival
  split <;> cases w <;> simp [Cch.discardOpen, Cch.followFill, Cch.countFragment]

/-! ### The expression changes of a frame (R88, R148, R154, R155) -/

/-- The changes of a pedal word, pedal 1 before pedal 2 (R154). -/
def changesOf (first second : Bool) (r1 r2 : Nat) : List (Bool × Nat) :=
  (if first then [(false, r1)] else []) ++ if second then [(true, r2)] else []

theorem changesOf_map {α : Type} (g : Bool × Nat → α) (first second : Bool) (r1 r2 : Nat) :
    (changesOf first second r1 r2).map g =
      (if first then [g (false, r1)] else []) ++ if second then [g (true, r2)] else [] := by
  cases first <;> cases second <;> rfl

/-- What both changes leave of the engine. -/
theorem changesOf_sce {x y : State} (htbm : x.tbm = y.tbm) (hsce : x.sce = y.sce) (first second : Bool)
    (r1 r2 : Nat) :
    let e := if first then y.applyExpMaps 1 r1 else y
    ((changesOf first second r1 r2).foldl (fun s c => s.changed c.1 c.2) x).sce =
      (if second then e.applyExpMaps 2 r2 else e).sce := by
  have hone (v : Nat) : (x.changed false v).sce = (y.applyExpMaps 1 v).sce := by
    rw [State.changed_sce, if_neg nofun]
    exact State.applyExpMaps_sce htbm hsce _ _
  have htwo {x y : State} (htbm : x.tbm = y.tbm) (hsce : x.sce = y.sce) (v : Nat) :
      (x.changed true v).sce = (y.applyExpMaps 2 v).sce := by
    rw [State.changed_sce, if_pos rfl]
    exact State.applyExpMaps_sce htbm hsce _ _
  have hfirst : (x.changed false r1).tbm = (y.applyExpMaps 1 r1).tbm := by
    simp [State.changed, htbm]
  cases first <;> cases second <;>
    simp only [changesOf, Bool.false_eq_true, if_false, if_true, List.nil_append, List.append_nil,
      List.cons_append, List.foldl_cons, List.foldl_nil]
  · exact hsce
  · exact htwo htbm hsce r2
  · exact hone r1
  · exact htwo hfirst (hone r1) r2

theorem changesOf_pmn (first second : Bool) (r1 r2 : Nat) (x : State) :
    ((changesOf first second r1 r2).foldl (fun s c => s.changed c.1 c.2) x).pmn = { x.pmn with
      last1 := if first then r1 else x.pmn.last1
      last2 := if second then r2 else x.pmn.last2 } := by
  cases first <;> cases second <;> simp [changesOf, State.changed_pmn]

/-- A word that confirms a footswitch: its changes wait behind (R148). -/
theorem State.word_confirmed {u : State} (he : u.pmn.events = []) {w : Option Word32}
    (hc : u.pmn.switchEvents w ≠ []) :
    (u.mapPmn (Pmn.word w)).drainExpressions = u.mapPmn (Pmn.word w) := by
  refine State.drainExpressions_of_none _ fun b v es h => ?_
  have hfirst : (u.pmn.switchEvents w ++ u.pmn.expressionEvents w) = .expression b v :: es := by
    rw [← h]
    simp [Pmn.word, he]
  obtain ⟨e, rest, hcons⟩ := List.exists_cons_of_ne_nil hc
  have hmem : PedalEvent.expression b v ∈ u.pmn.switchEvents w := by
    rw [hcons, List.cons_append, List.cons.injEq] at hfirst
    rw [hcons, ← hfirst.1]
    exact List.mem_cons_self
  obtain ⟨f, -, hf⟩ := List.mem_filterMap.mp hmem
  split at hf
  · split at hf <;> exact absurd hf nofun
  · exact absurd hf nofun

/-- A word that confirms none: its changes are taken at once (R148). -/
theorem State.word_unconfirmed {u : State} (he : u.pmn.events = []) (hd : u.csq.due = none)
    {w : Option Word32} (hc : u.pmn.switchEvents w = []) {changes : List (Bool × Nat)}
    (hx : u.pmn.expressionEvents w = changes.map fun c => PedalEvent.expression c.1 c.2) :
    (u.mapPmn (Pmn.word w)).drainExpressions = changes.foldl (fun s c => s.changed c.1 c.2)
      { u with pmn := { u.pmn.word w with events := [] } } := by
  rw [State.drainExpressions_eq changes [] nofun _ (by simp [Pmn.word, he, hc, hx]), State.thenChanges,
    if_pos (by exact hd)]
  rfl

/-! ### The blocks of a delivered frame -/

@[simp] theorem State.deliverFrame_blocks (o : FrameOrder) (r : Received) (s : State) :
    (s.deliverFrame o r).sli = (s.heard o r).sli ∧ (s.deliverFrame o r).stg = s.aged.stg ∧
    (s.deliverFrame o r).swu = s.aged.swu ∧ (s.deliverFrame o r).dlu = (s.sounded r).dlu ∧
    (s.deliverFrame o r).tck = (s.heard o r).tck ∧ (s.deliverFrame o r).csq = s.aged.csq ∧
    (s.deliverFrame o r).tun = (s.heard o r).tun ∧ (s.deliverFrame o r).frame = (s.heard o r).frame := by
  obtain ⟨-, hstg, hswu, hcsq, -, -, hdlu⟩ := s.heard_blocks o r
  rw [← hstg, ← hswu, ← hdlu, ← hcsq]
  simp [State.deliverFrame_eq]

/-! ### The expression maps (R88) -/

theorem State.applyExpMap_idle {p i : Nat} (v : Nat)
    (h : (s.tbm.expMap i).enabled = false ∨ (s.tbm.expMap i).pedal ≠ p ∨ s.sce.live = none) :
    s.applyExpMap p v i = s := by
  unfold State.applyExpMap
  dsimp only
  split
  next hm =>
    obtain ⟨hon, hp⟩ := hm
    have hlive : s.sce.live = none := by simpa [hon, hp] using h
    simp only [Sce.liveStage, hlive, Option.bind_none]
  next => rfl

theorem State.applyExpMap_noStage {p i : Nat} (v : Nat) {c : Copy} (hlive : s.sce.live = some c)
    (h : (s.tbm.expMap i).stage = 0 ∨ c.stages.length < (s.tbm.expMap i).stage) :
    s.applyExpMap p v i = s := by
  unfold State.applyExpMap
  dsimp only
  rw [Sce.liveStage_none hlive h]
  split <;> rfl

theorem State.applyExpMap_of_stage {p i : Nat} (v : Nat) {c : Copy} {st : Stage}
    (hon : (s.tbm.expMap i).enabled = true) (hp : (s.tbm.expMap i).pedal = p)
    (hlive : s.sce.live = some c) (hn : 1 ≤ (s.tbm.expMap i).stage)
    (hst : c.stages[(s.tbm.expMap i).stage - 1]? = some st) : s.applyExpMap p v i =
    if (s.tbm.expMap i).param < st.kind.count ∧ paramClass st.kind (s.tbm.expMap i).param ≠ .structural then
      s.mapSce (Sce.startChange (s.tbm.expMap i).stage (s.tbm.expMap i).param
        (paramClamp st.kind (s.tbm.expMap i).param ((s.tbm.expMap i).value v)))
    else s := by
  unfold State.applyExpMap
  dsimp only
  rw [if_pos ⟨hon, hp⟩, Sce.liveStage_some hlive hn hst]

/-- A change started in the stage that a map names (R85, R88). -/
theorem Sce.startChange_eq {e : Sce} {c : Copy} {n : Nat} {st : Stage} (hlive : e.live = some c)
    (hst : c.stages[n - 1]? = some st) (i : Nat) (v : Int) : e.startChange n i v =
    { e with live := some { c with
        stages := c.stages.set (n - 1)
          { st with params := st.params.modify i (Param.startChange st.kind i v) } } } := by
  simp only [Sce.startChange, Sce.mapCopy, hlive, Option.map_some, Copy.mapStage]
  rw [List.modify_eq_set_getElem?, hst]
  rfl

/-- With no LIVE copy a run of changes leaves the engine. -/
theorem takeExpressions_sce_idle (es : List PedalEvent) (s : State) (h : s.sce.live = none) :
    (takeExpressions es s).sce = s.sce := by
  have hmap (p v i : Nat) {x : State} (hx : x.sce.live = none) : x.applyExpMap p v i = x :=
    State.applyExpMap_idle v (.inr (.inr hx))
  have hmaps (p v : Nat) {x : State} (hx : x.sce.live = none) : x.applyExpMaps p v = x := by
    unfold State.applyExpMaps forEach
    simp only [List.foldl_cons, List.foldl_nil]
    rw [hmap p v 0 hx, hmap p v 1 hx, hmap p v 2 hx, hmap p v 3 hx]
  induction es generalizing s with
  | nil => rfl
  | cons e es ih =>
    cases e with
    | press f => rfl
    | release f => rfl
    | expression b v =>
      have hsce : (State.changed (s.mapPmn fun p => { p with events := es }) b v).sce = s.sce := by
        rw [State.changed_sce, hmaps _ _ (by exact h)]
        rfl
      simp only [takeExpressions, State.expressionChange_eq]
      exact (ih _ (by rw [hsce, h])).trans hsce

theorem State.drainExpressions_sce_idle (h : s.sce.live = none) : s.drainExpressions.sce = s.sce := by
  unfold State.drainExpressions
  split
  · rfl
  · exact takeExpressions_sce_idle _ s h

theorem State.deliverFrame_input (o : FrameOrder) (r : Received) (s : State) :
    (s.deliverFrame o r).cch.asm = (s.heard o r).cch.asm ∧
    (s.deliverFrame o r).cch.fifo = (s.heard o r).cch.fifo := by
  rw [State.deliverFrame_eq, State.deliver_fifo, State.drainExpressions_fifo, State.deliver_eq]
  simp [State.drainExpressions_keeps_input]

/-- The debounce of the frame (R149). -/
theorem State.deliverFrame_switch (o : FrameOrder) (r : Received) (s : State) (k : SwitchNo) :
    (s.deliverFrame o r).pmn.switches.get k = ({ s.pmn.switches.get k with fresh := false } : Footswitch).frame
      (s.pmn.debounce * 16) (pedalDown (r.pedal s.sli.lastPedal s.sli.map.pedal) k) := by
  obtain ⟨-, -, -, -, hpmn, -, -⟩ := s.heard_blocks o r
  have haged : s.aged.pmn.switches.get k = { s.pmn.switches.get k with fresh := false } := vmap_get ..
  rw [State.deliverFrame_eq, State.deliver_pmn, (State.drainExpressions_keeps_input _).1, State.mapPmn_pmn, hpmn,
    Pmn.word_switch, haged]
  rfl

/-- The events that the footswitch bits of a word confirm (R148, R149). -/
theorem State.aged_switchEvents (w : Option Word32) (s : State) :
    let confirms : SwitchNo → Bool := fun k =>
      let x := s.pmn.switches.get k
      pedalDown w k != x.reference && decide (16 * s.pmn.debounce ≤ x.debounce + 1)
    s.aged.pmn.switchEvents w = (twelve.filter confirms).map fun k =>
      if pedalDown w k then PedalEvent.press k else .release k := by
  intro confirms
  have hconfirms (k : SwitchNo) :
      (s.aged.pmn.switches.get k).confirms (s.pmn.debounce * 16) (pedalDown w k) = confirms k := by
    rw [mul_comm]
    simp [State.aged, State.age, Footswitch.confirms, confirms]
  rw [← filterMap_ite]
  refine List.filterMap_congr fun k _ => ?_
  rw [← hconfirms]
  rfl

/-- Before the pedal word no report waits behind the frame. -/
theorem State.heard_outbox (o : FrameOrder) (r : Received) (s : State) (h : s.cch.outbox = []) :
    (s.heard o r).cch.outbox = [] := by
  rw [State.heard_cch]
  split
  · exact h
  · rw [Cch.arrival_outbox, h]

/-- What the pedal word leaves of the engine, of the changes and of the channel, with nothing waiting before
it (R88, R148, R154, R155). -/
theorem State.word_changes {u y : State} (htbm : u.tbm = y.tbm) (hsce : u.sce = y.sce)
    (he : u.pmn.events = []) (hd : u.csq.due = none) {w : Option Word32} {first second : Bool} {r1 r2 : Nat}
    {confirmed : List PedalEvent} (hc : u.pmn.switchEvents w = confirmed)
    (hx : u.pmn.expressionEvents w =
      (changesOf first second r1 r2).map fun c => PedalEvent.expression c.1 c.2) :
    let t := (u.mapPmn (Pmn.word w)).drainExpressions
    let once := if first then y.applyExpMaps 1 r1 else y
    (confirmed ≠ [] → t.sce = y.sce ∧ t.pmn.last1 = u.pmn.last1 ∧ t.pmn.last2 = u.pmn.last2 ∧
      t.pmn.events = confirmed ++ (changesOf first second r1 r2).map fun c => .expression c.1 c.2) ∧
    (confirmed = [] → t.sce = (if second then once.applyExpMaps 2 r2 else once).sce ∧ t.pmn.events = [] ∧
      t.pmn.last1 = (if first then r1 else u.pmn.last1) ∧
      t.pmn.last2 = (if second then r2 else u.pmn.last2)) ∧
    t.cch = { u.cch with outbox := u.cch.outbox ++ if u.pmn.reporting ∧ confirmed = [] then
      (changesOf first second r1 r2).map fun c => expressionRecord (if c.1 then 2 else 1) c.2 else [] } := by
  intro t once
  by_cases hnil : confirmed = []
  · have ht : t = _ := State.word_unconfirmed he hd (hc.trans hnil) hx
    refine ⟨fun hne => absurd hnil hne, fun _ => ?_, ?_⟩
    · rw [ht, changesOf_pmn]
      exact ⟨changesOf_sce (by exact htbm) (by exact hsce) first second r1 r2, rfl, rfl, rfl⟩
    · rw [ht, changed_foldl_cch]
      simp only [Pmn.word, hnil, and_true] <;> rfl
  · have ht : t = _ := State.word_confirmed he (hc.trans_ne hnil)
    refine ⟨fun _ => ?_, fun h => absurd h hnil, ?_⟩
    · have hwait : (u.pmn.word w).events =
          confirmed ++ (changesOf first second r1 r2).map fun c => .expression c.1 c.2 := by
        rw [← hc, ← hx]
        simp only [Pmn.word, he, List.nil_append]
      rw [ht]
      exact ⟨hsce, rfl, rfl, hwait⟩
    · rw [ht, if_neg (fun h => hnil h.2), List.append_nil]
      rfl

/-! ### Passthrough (R81–R84, R92, R145) -/

theorem Received.sample_clamped (r : Received) (role : Option LinkSlot) :
    clampSample (r.sample role) = r.sample role := by
  have hrange : -8388608 ≤ r.sample role ∧ r.sample role ≤ 8388607 := by
    cases role with
    | none => simp [Received.sample]
    | some k =>
      rw [Received.sample_some]
      split
      · have hlow := BitVec.le_two_mul_toInt (x := (r.words.get k).extractLsb' 8 24)
        have hhigh := BitVec.two_mul_toInt_lt (x := (r.words.get k).extractLsb' 8 24)
        constructor <;> omega
      · exact ⟨by omega, by omega⟩
  obtain ⟨hlow, hhigh⟩ := hrange
  simp only [clampSample, clampTo, Config.sampleMin, Config.sampleMax]
  omega

theorem State.sounded_dlu_lines (r : Received) (s : State) :
    (s.sounded r).dlu = { s.dlu with lines := (s.sounded r).dlu.lines } := rfl

theorem gained_zero (m f : Nat) : gained m f 0 = 0 := by
  simp [gained, share, rounded]

/-- Settles O37, with empty lines and no copy in the closed form of a frame of the engine. -/
theorem passthroughFrame : Obligations.PassthroughFrame := by
  intro o r s hheld hlock hr hlive hfading hfree hcross a mute out
  have hclamp : clampSample a = a := r.sample_clamped _
  have hweight : s.aged.weight = none := by rw [State.aged_weight, hcross]; rfl
  have hlive' : s.aged.sce.live = none := by simp [State.aged, State.age, hlive]
  have hfading' : s.aged.sce.fading = none := by simp [State.aged, State.age, hfading]
  have hline' (l : LineNo) : s.aged.dlu.lines.get l = Line.free := hfree l
  have hnone : (four.filter fun l => decide ((s.aged.dlu.lines.get l).state ≠ .free)) = [] :=
    List.filter_eq_nil_iff.mpr fun l _ => by rw [hline' l]; decide
  obtain ⟨hsce, hsli, hlines⟩ := State.audio_eq (r.frameIn s) s.aged
  rw [hweight, hlive', hfading', hnone] at hsce hsli
  have hmix (x : Int) : partyMix none x x = x := rfl
  simp only [Option.elim_none, Option.map_none, hmix, List.map_nil, List.sum_nil, add_zero, zero_add,
    show (r.frameIn s).a = a from rfl, clipOf, hclamp, if_true, moveGain_mute, gained_zero] at hsce hsli
  have htsce : (s.deliverFrame o r).sce = (s.sounded r).sce := by
    obtain ⟨-, -, -, -, -, hheard, -⟩ := s.heard_blocks o r
    rw [State.deliverFrame_eq, State.deliver_sce, State.drainExpressions_sce_idle, State.mapPmn_sce, hheard]
    rw [State.mapPmn_sce, hheard]
    exact congrArg Sce.live hsce
  have hdlu : (s.sounded r).dlu = s.dlu := by
    have hget : (s.sounded r).dlu.lines = s.dlu.lines := Vector.ext fun i hi =>
      (hlines ⟨i, hi⟩).trans (if_pos (congrArg Line.state (hline' ⟨i, hi⟩)))
    rw [State.sounded_dlu_lines, hget]
  obtain ⟨htsli, -, -, htdlu, -⟩ := s.deliverFrame_blocks o r
  refine ⟨_, exec_lockedFrame o hheld hlock hr, ?_⟩
  rw [htsli, State.heard_sli, htsce, htdlu, hdlu, State.sounded, hsli, hsce]
  exact ⟨rfl, rfl, rfl, rfl, rfl, rfl, rfl, rfl, rfl, fun h => min_eq_right h, Bool.or_false _, rfl⟩

/-! ### The locked frame -/

/-- Settles O36, block by block. -/
theorem lockedFrameProcessed : Obligations.LockedFrameProcessed := by
  refine ⟨?_, fun b v s => State.expressionChange_eq b v s, fun p v s => rfl, ?_⟩
  · intro o r s hheld hlock hr a b f live fading w mixed line wet inUse m left right mute out terms mixClips
      stageClips engine k magnitude wave click pedal confirms confirmed change first second readings
      engine1 engine2 word arrived changes
    obtain ⟨hsce, hsli, hlines⟩ := State.audio_eq (r.frameIn s) s.aged
    rw [State.aged_weight, moveGain_mute] at hsce hsli
    rw [State.aged_weight] at hlines
    have hsce' : (s.sounded r).sce = engine := hsce
    obtain ⟨htbm, -, -, hcsq, hpmn, hheard, -⟩ := s.heard_blocks o r
    obtain ⟨htsli, htstg, htswu, htdlu, httck, htcsq, httun, htframe⟩ := s.deliverFrame_blocks o r
    have hdirect : (s.aged.sce.live.elim (r.frameIn s).a fun c => inputOf c.inputSelect (r.frameIn s)) =
        match s.sce.live with
        | none => a
        | some c => if c.inputSelect = 1 then b else if c.inputSelect = 2 then (a + b) / 2 else a := by
      simp only [inputOf_eq, State.aged, State.age]
      cases h : s.sce.live <;> simp [h] <;> rfl
    obtain ⟨hasm, hfifo⟩ := s.deliverFrame_input o r
    have hword (he : s.pmn.events = []) (hd : s.csq.due = none) :=
      State.word_changes (u := s.heard o r) (y := { s with sce := engine }) 
        (confirmed := confirmed) (first := first) (second := second) (r1 := readings.1) (r2 := readings.2)
        htbm (hheard.trans hsce') (by rw [hpmn]; exact he) (by rw [hcsq]; exact hd)
        (by rw [hpmn]; exact s.aged_switchEvents pedal) (by rw [hpmn]; exact s.aged.pmn.expressionEvents_eq pedal)
    refine ⟨_, exec_lockedFrame o hheld hlock hr, ?_⟩
    refine ⟨?_, ?_, ?_, ?_, ?_, ?_, ?_, ?_, ?_, ?_, fun k => rfl, rfl, ?_, ?_, ?_, ?_, ?_, ?_, ?_, ?_, ?_, ?_,
      ?_, ?_, ?_, ?_, ?_, ?_⟩
    · rw [htframe, State.heard_frame]
    · rw [htframe, State.heard_frame]
    · rw [htframe, State.heard_frame]
    · rw [htframe, State.heard_frame]
      rfl
    · rw [htsli, State.heard_sli]
    · rw [htsli, State.heard_sli]
      exact hlock
    · rw [htsli, State.heard_sli]
      rfl
    · rw [htsli, State.heard_sli]
      rfl
    · rw [htsli, State.heard_sli]
    · rw [htsli, State.heard_sli, State.sounded, hsli, Tck.sample_eq, hdirect]
      rfl
    · intro l hl
      rw [htdlu]
      exact (hlines l).trans (if_neg hl)
    · intro l hl
      rw [htdlu]
      exact (hlines l).trans (if_pos hl)
    · rw [htdlu]
      rfl
    · intro k
      exact (State.deliverFrame_switch o r s k).trans (Footswitch.frame_fresh ..)
    · intro he hd
      obtain ⟨hwaiting, htaken, -⟩ := hword he hd
      refine ⟨fun hne => ?_, fun hnil => ?_⟩
      · obtain ⟨htsce, hlast1, hlast2, hevents⟩ := hwaiting hne
        rw [changesOf_map, ← List.append_assoc] at hevents
        rw [hpmn] at hlast1 hlast2
        exact ⟨htsce, hlast1, hlast2, hevents⟩
      · obtain ⟨htsce, hevents, hlast1, hlast2⟩ := htaken hnil
        rw [hpmn] at hlast1 hlast2
        exact ⟨htsce, hevents, hlast1, hlast2⟩
    · intro he hd hout
      obtain ⟨-, -, hcch⟩ := hword he hd
      rw [changesOf_map, State.heard_cch, hpmn] at hcch
      refine State.deliver_cch (s := { s with cch := arrived }) ?_ hcch
      have hnone := s.heard_outbox o r hout
      rwa [State.heard_cch] at hnone
    · exact (State.deliverFrame_frame s o r).1
    · rw [htswu, State.aged_swu]
    · rw [htstg]
      rfl
    · rw [htcsq]
      rfl
    · rw [httck, State.heard_tck, State.clockFrame_tck]
      rfl
    · rw [htframe, State.heard_frame]
      exact State.clockFrame_riseDue
    · intro h
      rw [htframe, State.heard_frame, httun, State.heard_tun, h]
      exact ⟨rfl, rfl⟩
    · intro h
      rw [htframe, State.heard_frame, httun, State.heard_tun, h]
      refine ⟨rfl, ?_⟩
      rw [if_neg nofun, if_congr (State.tunerState_off s) rfl rfl]
    · intro h
      rw [htframe, State.heard_frame, hasm, hfifo, State.heard_cch, h]
      exact ⟨rfl, rfl, rfl⟩
    · intro h
      rw [htframe, State.heard_frame, hasm, hfifo, State.heard_cch, h]
      exact ⟨rfl, rfl, rfl⟩
  · intro p v i s e
    refine ⟨State.applyExpMap_idle v, fun c hon hp hlive => ⟨State.applyExpMap_noStage v hlive,
      fun st hn hst => ?_⟩⟩
    have hmap := State.applyExpMap_of_stage v hon hp hlive hn hst
    refine ⟨fun h => ?_, fun hi hc => ?_⟩
    · rw [hmap, if_neg]
      rintro ⟨hi, hc⟩
      exact h.elim (fun h => absurd hi (not_lt.mpr h)) hc
    · rw [hmap, if_pos ⟨hi, hc⟩, State.mapSce, Sce.startChange_eq hlive hst]
      rfl

end Sys2Proof.Machine
